-- ==== Sys2Proof/Word.lean ====
section
/-!
DEFINITION. The word types of the TC64's three ports and their plainest arithmetic.
Bit vectors stand only for what crosses a port as bytes (0.6.8); counts, grains, bits of a round and rounds are `Nat`
(0.6.1), and a timing error δ is an `Int` (R15).
-/
namespace Sys2Proof

/-- One byte as a port carries it, most significant bit first (0.6.8). -/
abbrev Byte := BitVec 8

/-- The 8-byte identity of a premises unit (0.5, "Serial"). -/
abbrev Serial := BitVec 64

/-- A unit number, the index 0..63 of a unit record (R23). -/
abbrev UnitNo := Fin 64

/-- A tree controller's station number 0..15 (R190). -/
abbrev TreeStation := Fin 16

/-- Any party on the shelf bus, 0..31; 31 as a destination is "all stations" (R172). -/
abbrev BusStation := Fin 32

/-- A tariff band 0..3 (R136). -/
abbrev Band := Fin 4

/-- Saturating addition: a count that would pass `top` stays at `top` (0.6.3). -/
def satAdd (top a b : Nat) : Nat := min top (a + b)

/-- The next number of a count that wraps from 65,535 to 0 (R1, R135). -/
def wrap16 (n : Nat) : Nat := (n + 1) % 65536

/-- How many rounds lie from round `a` up to round `b`, counted modulo 65,536 (R120). -/
def roundsFrom (a b : Nat) : Nat := (b + 65536 - a % 65536) % 65536

end Sys2Proof
end

