-- ==== Sys2Proof/Syntax.lean ====
section
/-!
DEFINITION. The commands of the TC64: one constructor of `Instr` for each row of spec/opcode_table.json, with the operands
the event or the notice carries. What a command means is in Sys2Proof/Machine alone.
-/
namespace Sys2Proof

/-- The reach class that the REACH strap selects (0.6.2). -/
inductive ReachClass where
  | n
  | f
  deriving DecidableEq, Repr

/-- The level of the strap pins (0.3). -/
structure Straps where
  station : TreeStation
  reach   : ReachClass
  deriving DecidableEq, Repr

/-- Which causes of a reset are present when the part is released (R190). -/
structure ResetCauses where
  powerOn  : Bool
  brownOut : Bool
  resetPin : Bool
  deriving DecidableEq, Repr

/-- The 8-byte burst header, field by field (1.9.4). -/
structure BurstHeader where
  unit   : Byte
  kind   : Byte
  report : BitVec 16
  dlen   : BitVec 16
  spread : Byte
  check  : Byte
  deriving DecidableEq, Repr

/-- What the upstream receiver read at one delimiter (R14, R15, R17): the bit of the arrival round at which the delimiter's
first bit stands, the light readings over the four preamble grains before it, the header, the payload bytes and the word of
the check grain. -/
structure Burst where
  pos      : Nat
  preamble : List Nat
  header   : BurstHeader
  payload  : List Byte
  check    : BitVec 32
  deriving DecidableEq, Repr

/-- The codes of a profile as an order carries them (9.8.2); R39 and R41 check their ranges. -/
structure ProfileCodes where
  m  : Byte
  s  : Byte
  pk : Byte
  w  : Byte
  deriving DecidableEq, Repr

/-- The fields of a SETTINGS order after the tag (9.8.7). -/
structure SettingsFields where
  sources  : BitVec 16
  tdark    : BitVec 16
  budget   : BitVec 24
  interval : BitVec 16
  litCount : Byte
  mask     : Byte
  deriving DecidableEq, Repr

/-- How a notice came over the line: how many recessive bit times in a row the SBP had counted when it began (R169), 0 for one
under way at reset release, and whether every byte had its start bit (R173). -/
structure Reception where
  recessive : Nat
  framed    : Bool
  deriving DecidableEq, Repr

/-- The sender and destination of a received notice (9.8.1). -/
structure NoticeHead where
  sender : BusStation
  dest   : BusStation
  deriving DecidableEq, Repr

/-- The head of a received order: the notice's addresses and the order's tag (9.8.1, 9.8.2). -/
structure OrderHead where
  sender : BusStation
  dest   : BusStation
  tag    : BitVec 16
  deriving DecidableEq, Repr

/-- The kinds of peer claim that R158 stores. -/
inductive StoredClaim where
  | claiming
  | held
  deriving DecidableEq, Repr

/-- The body of a load notice (9.8.3). -/
structure LoadBody where
  load          : BitVec 16
  undeliverable : BitVec 32
  interfered    : BitVec 32
  lineFaults    : BitVec 16
  isolation     : Byte
  active        : Byte
  deriving DecidableEq, Repr

/-- The twenty alarm kinds, in the order of their kind numbers 1..20 (10.1). -/
inductive AlarmKind where
  | rogueCondemned
  | rogueUnlocated
  | rogueUnenrolled
  | duplicateSerial
  | barredInService
  | settingsDefaulted
  | unitLost
  | unitGone
  | rangingFailed
  | reachEdge
  | misaligned
  | tailRerange
  | tableFull
  | counterSaturated
  | outboxOverflow
  | stranger
  | barredSeen
  | claimYielded
  | outOfReach
  | unitJoined
  deriving DecidableEq, Repr

/-- The commands: the rows of spec/opcode_table.json, in the table's order. -/
inductive Instr where
  /-- RESET_RELEASE (R196, R190): the pins and the causes present at the release. -/
  | resetRelease (pins : Straps) (causes : ResetCauses)
  /-- ROUND_MARKER (R1); `missed` names the premises units whose check of this frame fails (R20). -/
  | roundMarker (missed : List Serial)
  /-- INTERVAL_CLOSE (R90). -/
  | intervalClose
  /-- LOAD_ENTRY_AGE_OUT (R154) of the peer entry `peer`. -/
  | loadEntryAgeOut (peer : TreeStation)
  /-- DISCOVERY_RESPONSE (R45, R16): a delimiter found in the discovery window of arrival round `round`. -/
  | discoveryResponse (round : Nat) (burst : Burst)
  /-- STRANGER_AGE_OUT (R43) of the entry for `serial`. -/
  | strangerAgeOut (serial : Serial)
  /-- BURST_CLASSIFY (R94): the findings for the data or report-only grant of `unit` in the plan of `round`. -/
  | burstClassify (round : Nat) (unit : UnitNo) (found : Option Burst)
  /-- RANGING_ATTEMPT (R61): the findings for the ranging grant of `unit` in the plan of `round`. -/
  | rangingAttempt (round : Nat) (unit : UnitNo) (found : Option Burst)
  /-- DARK_SAMPLE (R111): the monitor readings over the dark window of arrival round `round`. -/
  | darkSample (round : Nat) (readings : List Nat)
  /-- HOLDOFF_EXPIRY (R129). -/
  | holdoffExpiry
  /-- STEP_REOFFER (R119). -/
  | stepReoffer
  /-- HUSH_FLAGS_CLEARED (R119). -/
  | hushFlagsCleared
  /-- GUARD_SAMPLE (R112): the readings over the guard of the grant of `unit` in the plan of `round`. -/
  | guardSample (round : Nat) (unit : UnitNo) (readings : List Nat)
  /-- TAIL_SPAN_EXPIRY (R115). -/
  | tailSpanExpiry (unit : UnitNo)
  /-- BAR_SERIAL_REOFFER (R114). -/
  | barSerialReoffer (serial : Serial)
  /-- CLAIM_SETTLE_EXPIRY (R52). -/
  | claimSettleExpiry (unit : UnitNo)
  /-- ASSIGN_REOFFER (R59). -/
  | assignReoffer (unit : UnitNo)
  /-- LOST_HOLD_EXPIRY (R34). -/
  | lostHoldExpiry (unit : UnitNo)
  /-- DROP_UNIT_REOFFER (R30). -/
  | dropUnitReoffer (unit : UnitNo)
  /-- COOLING_EXPIRY (R30). -/
  | coolingExpiry (unit : UnitNo)
  /-- CLAIM_REFRESH_EXPIRY (R161). -/
  | claimRefreshExpiry (unit : UnitNo)
  /-- CLAIM_REOFFER (R51) of the lost notice for `serial`. -/
  | claimReoffer (serial : Serial)
  /-- NOTICE_RECEIVED (R173): how the notice came, and the bytes that came before the line fell quiet. -/
  | noticeReceived (heard : Reception) (bytes : List Byte)
  /-- ORDER_UNKNOWN_KIND (R179). -/
  | orderUnknownKind (head : OrderHead) (kind : Byte)
  /-- SETTINGS (R193). -/
  | settings (head : OrderHead) (fields : SettingsFields)
  /-- PERMIT (R41). -/
  | permit (head : OrderHead) (serial : Serial) (codes : ProfileCodes)
  /-- WITHDRAW (R42). -/
  | withdraw (head : OrderHead) (serial : Serial)
  /-- REVOKE (R38). -/
  | revoke (head : OrderHead) (serial : Serial)
  /-- PROFILE (R39). -/
  | profile (head : OrderHead) (serial : Serial) (codes : ProfileCodes)
  /-- BAND (R136). -/
  | band (head : OrderHead) (band : Byte)
  /-- TAKE (R141). -/
  | take (head : OrderHead)
  /-- ALARM_CLEAR (R189). -/
  | alarmClear (head : OrderHead) (kind : Byte)
  /-- UNBAR (R166). -/
  | unbar (head : OrderHead) (serial : Serial)
  /-- RESTART (R194). -/
  | restart (head : OrderHead)
  /-- RESTART_END (R195). -/
  | restartEnd
  /-- CLAIM_NOTICE (R158). -/
  | claimNotice (head : NoticeHead) (serial : Serial) (level : BitVec 16) (kind : StoredClaim)
  /-- RELEASED_CLAIM_NOTICE (R159). -/
  | releasedClaimNotice (head : NoticeHead) (serial : Serial) (level : BitVec 16)
  /-- CLAIM_ENTRY_EXPIRY (R160) of the entry with key (`serial`, `peer`). -/
  | claimEntryExpiry (serial : Serial) (peer : TreeStation)
  /-- BAR_NOTICE (R164); the reason is the byte the notice carries. -/
  | barNotice (head : NoticeHead) (serial : Serial) (reason : Byte)
  /-- BAR_REOFFER (R163) of the lost bar notice for `serial`. -/
  | barReoffer (serial : Serial)
  /-- LOAD_NOTICE (R155). -/
  | loadNotice (head : NoticeHead) (body : LoadBody)
  /-- PRESENCE_NOTICE (R167); cause and reach class are the bytes the notice carries. -/
  | presenceNotice (head : NoticeHead) (cause : Byte) (reach : Byte)
  /-- PRESENCE_REOFFER (R191). -/
  | presenceReoffer
  /-- LISTEN_END (R191). -/
  | listenEnd
  /-- ENLIST_EXPIRY (R192). -/
  | enlistExpiry
  /-- TRANSMIT_START (R177, R169): how many recessive bit times in a row the SBP has counted. -/
  | transmitStart (recessive : Nat)
  /-- ARBITRATION_LOST (R170). -/
  | arbitrationLost
  /-- LINE_FAULT (R171). -/
  | lineFault
  /-- NOTICE_SENT (R177). -/
  | noticeSent
  /-- USAGE_PACING_RETRY (R145). -/
  | usagePacingRetry
  /-- ALARM_REOFFER (R188). -/
  | alarmReoffer (kind : AlarmKind)
  /-- DOWNSTREAM_PACKET_ARRIVAL (R21): the packet's unit number tag and its bytes. -/
  | downstreamPacketArrival (tag : Nat) (data : List Byte)
  /-- RESET_HELD (R196). -/
  | resetHeld
  /-- PU_POWERED_DOWN (R19) of the premises unit with `serial`. -/
  | puPoweredDown (serial : Serial)
  deriving DecidableEq, Repr

end Sys2Proof
end

