-- ==== Sys2Proof/Decode.lean ====
section
/-!
DEFINITION. The command that a word spells by the bits of spec/opcode_table.json. Every row of that table has an empty
"fields" list and no "fixed" bits: the block takes events, not instruction words, so no word spells a command
(log entry 2). The byte formats of the ports are in Sys2Proof/Machine/Operands.lean.
-/
namespace Sys2Proof

/-- The command that the `nbits` low bits of `w` spell by the table: none, since no row of the table gives bits. -/
def decodeTableWord (nbits w : Nat) : Option Instr :=
  match nbits, w with
  | _, _ => none

end Sys2Proof
end

