-- ==== Sys2Proof/Config.lean ====
section
/-!
DEFINITION. What one part fixes, and the free values the spec leaves open.
A free value is an opaque constant: nothing in Lean can evaluate it or prove a value of it.
-/
namespace Sys2Proof

/-- FREE VALUE (R179, R180; log entry 4). An order whose body is shorter than three bytes is answered BAD_FIELD with "the
order's tag" and "the received kind byte", and the spec does not say what stands in the bytes that were never received.
`Config.absentOrderByte k i` is the byte answered at body place `i` (0 the kind, 1 and 2 the tag) at the `k`-th such use. -/
opaque Config.absentOrderByte : Nat → Nat → Byte

/-- FREE VALUE (R3, R18; log entry 24). The spread that the premises unit with this serial picks, anew for each discovery window,
0..63; the number is that of the frame. -/
opaque Config.puSpread : Nat → Serial → Fin 64

/-- FREE VALUE (R14, R18; log entry 24). The upstream data bytes that the premises unit with this serial has waiting when it fills
a burst. -/
opaque Config.puWaiting : Nat → Serial → List Byte

/-- FREE VALUE (R18; log entry 24). How many of those bytes it would send in a data burst, if the payload has room for them. -/
opaque Config.puTaken : Nat → Serial → Nat

/-- FREE VALUE (R14, R18; log entry 24). The padding byte at a place of a data burst's payload. -/
opaque Config.puPadding : Nat → Serial → Nat → Byte

/-- FREE VALUE (R14; log entry 24). The fixed word of the delimiter, the same for every premises unit, which the spec does not
give. -/
opaque Config.delimiter : BitVec 32

end Sys2Proof
end

