-- ==== Sys2Proof/Machine/State.lean ====
section
/-!
DEFINITION. The state of the TC64: one structure for each block of 0.4, the queue of waiting commands, and the premises
units' own condition (R18). Everything is plain data.
-/
namespace Sys2Proof.Machine

/-! ### Reoffers -/

/-- Where something stands that is "offered again after the next frame" or "at the next round-marker event" (R10, R51, R163,
R188, R191): nothing is owed; it waits for that event; the event has come and the offer is due; the offer is due and another
loss since that event waits for the next one. -/
inductive Reoffer where
  | idle
  | waiting
  | due
  | dueAgain
  deriving DecidableEq, Repr

/-! ### Start Controller (chapter 11) -/

/-- The phase of the part (chapter 11). -/
inductive Phase where
  | listen
  | enlist
  | serving
  | restarting
  deriving DecidableEq, Repr

/-- The recorded cause of the reset (R190). -/
inductive ResetCause where
  | powerOn
  | brownOut
  | resetPin
  deriving DecidableEq, Repr

/-- The settings in force once taken or defaulted (R193). Bit `i` of `sources` stands for station 16 + i (9.8.7). -/
structure Settings where
  sources     : BitVec 16
  tdark       : Nat
  budget      : Nat
  interval    : Nat
  litCount    : Nat
  maskSevere  : Bool
  maskDegrading : Bool
  maskNotable : Bool
  deriving DecidableEq, Repr

/-- The defaults of the settings table (R193). -/
def Settings.defaults : Settings :=
  { sources := 0x7FFF, tdark := 200, budget := 400000, interval := 400, litCount := 3,
    maskSevere := false, maskDegrading := false, maskNotable := false }

/-- Start Controller. `settings` is `none` until they are taken or defaulted, and they are locked once present (R193).
`presence` is the presence notice's re-offer (R191). `restartEnds` holds the answer of the end test of R195 at the last
round-marker event until RESTART_END takes it. `ticked` is set when LISTEN_END or ENLIST_EXPIRY has taken the SC's part of the
next round-marker event ahead of its frame (log entry 7). -/
structure StartCtl where
  station     : TreeStation
  reach       : ReachClass
  cause       : ResetCause
  phase       : Phase
  listenCount : Nat
  enlistCount : Nat
  settings    : Option Settings
  presence    : Reoffer
  restartEnds : Bool
  ticked      : Bool
  deriving DecidableEq, Repr

/-! ### Orders to premises units and the Tree Line Interface (chapter 1) -/

/-- An order to a premises unit (1.9.3). -/
inductive PuOrder where
  | assign (unit : UnitNo) (serial : Serial) (eqd : Nat)
  | eqd (unit : UnitNo) (eqd : Nat)
  | hushUnit (unit : UnitNo)
  | speakUnit (unit : UnitNo)
  | hushAll
  | speakAll
  | barSerial (serial : Serial)
  | dropUnit (unit : UnitNo)
  deriving DecidableEq, Repr

/-- The blocks that offer orders (R8). -/
inductive Producer where
  | ec
  | lm
  | ut
  deriving DecidableEq, Repr

/-- Which hush flags a carried step or closing offer clears (R119, R126 to R129). -/
inductive ClearSet where
  | nothing
  | all
  | units (l : List UnitNo)
  deriving DecidableEq, Repr

/-- What the carriage of an order reports beyond the order itself (R10, R119): that it is the last of an isolation step, or
the last of a closing offer with the flags that offer clears. -/
inductive OfferMark where
  | plain
  | stepEnd
  | closingEnd (clears : ClearSet)
  deriving DecidableEq, Repr

/-- An entry of the downstream order queue (R8). -/
structure QueuedOrder where
  order    : PuOrder
  producer : Producer
  mark     : OfferMark
  deriving DecidableEq, Repr

/-- The kinds of a grant (R7). -/
inductive GrantKind where
  | data
  | reportOnly
  | ranging
  | discovery
  deriving DecidableEq, Repr

/-- A grant entry of a frame (1.9.2); the unit field is 64 in the discovery entry. -/
structure GrantEntry where
  unit   : Nat
  kind   : GrantKind
  start  : Nat
  length : Nat
  deriving DecidableEq, Repr

/-- A packet of the traffic port with its unit number tag (1.8). -/
structure Packet where
  tag  : Nat
  data : List Byte
  deriving DecidableEq, Repr

/-- A downstream frame (R5); its bytes are in Machine/Operands.lean. -/
structure Frame where
  round   : Nat
  mark    : Bool
  entries : List GrantEntry
  orders  : List PuOrder
  packets : List Packet
  deriving DecidableEq, Repr

/-- Tree Line Interface and traffic port. `nextRound` is the round number the next frame carries; `lastFrame` is the frame
last started on the line. `stream` is the traffic port's downstream stream, head first, and `holdOff` is set while a packet
waits at its head for room (R21). `upstream` is the port's output: the upstream packets handed to the backhaul since reset,
oldest first (R22). -/
structure TreeLine where
  nextRound     : Nat
  lastFrame     : Option Frame
  queue         : List QueuedOrder
  stream        : List Packet
  holdOff       : Bool
  undeliverable : Nat
  upstream      : List Packet
  deriving DecidableEq, Repr

/-! ### Unit Table (chapter 2) -/

/-- The six states of a unit record (R23). -/
inductive RecState where
  | free
  | claiming
  | ranging
  | active
  | lost
  | retiring
  deriving DecidableEq, Repr

/-- The three codes of a profile: `m` and `s`, `pk`, `w` (R25). -/
structure Profile where
  m  : Nat
  s  : Nat
  pk : Nat
  w  : Nat
  deriving DecidableEq, Repr

/-- A unit record (R24 to R28). `settleStarted` is R51's "settle started"; `dropWait` is the re-offer of a refused DROP_UNIT
(R30). -/
structure UnitRecord where
  state         : RecState
  serial        : Option Serial
  returning     : Bool
  everActive    : Bool
  disputed      : Bool
  barSent       : Bool
  dropPending   : Bool
  profile       : Profile
  staged        : Option Profile
  credit        : Nat
  report        : Nat
  outstanding   : Nat
  poll          : Nat
  silent        : Nat
  streak        : Nat
  level         : Nat
  hush          : Bool
  eqd           : Option Nat
  provEqd       : Option Nat
  attempts      : Nat
  corrHold      : Nat
  tailEvents    : Nat
  tailSpan      : Nat
  tailReranges  : Nat
  claimSettle   : Nat
  settleStarted : Bool
  lostHold      : Nat
  claimRefresh  : Nat
  cooling       : Nat
  dropWait      : Reoffer
  deriving DecidableEq, Repr

/-- A record as the "At reset:" lines of R23 to R28 leave it. -/
def UnitRecord.blank : UnitRecord :=
  { state := .free, serial := none, returning := false, everActive := false, disputed := false, barSent := false,
    dropPending := false, profile := ⟨0, 0, 1, 0⟩, staged := none, credit := 0, report := 0, outstanding := 0, poll := 0,
    silent := 0, streak := 0, level := 0, hush := false, eqd := none, provEqd := none, attempts := 0, corrHold := 0,
    tailEvents := 0, tailSpan := 0, tailReranges := 0, claimSettle := 0, settleStarted := false, lostHold := 0,
    claimRefresh := 0, cooling := 0, dropWait := .idle }

/-! ### Enrolment Controller (chapter 3) -/

/-- A permit-list entry (R40). -/
structure Permit where
  serial  : Serial
  profile : Profile
  deriving DecidableEq, Repr

/-- A strangers-list entry (R43). -/
structure Stranger where
  serial : Serial
  age    : Nat
  deriving DecidableEq, Repr

/-- The Enrolment Controller's state beside one record: the discovery measurement (R50), attempt pending (R57), the last
carriage and the waiting ASSIGN (R59), and the number of the record's own claiming notice, by which the report of its sending
is known to be this record's (R51, R52). -/
structure EcUnit where
  measurement    : Option Nat
  attemptPending : Bool
  lastCarriage   : Option Nat
  assignWait     : Reoffer
  claimRef       : Option Nat
  deriving DecidableEq, Repr

/-- The kinds of a claim notice (9.8.5). -/
inductive ClaimKind where
  | claiming
  | held
  | released
  deriving DecidableEq, Repr

/-- A claim notice reported lost and to be offered again (R51): claiming or released, the notice's number, and whether the
round-marker event has come. -/
structure LostClaim where
  serial : Serial
  level  : Nat
  kind   : ClaimKind
  owner  : UnitNo
  ref    : Nat
  due    : Bool
  deriving DecidableEq, Repr

/-- Enrolment Controller. -/
structure Enrolment where
  permits        : List Permit
  strangers      : List Stranger
  sinceDiscovery : Nat
  rangingQueue   : List UnitNo
  units          : Vector EcUnit 64
  lostClaims     : List LostClaim
  deriving DecidableEq, Repr

/-! ### Grant Scheduler (chapter 4) -/

/-- A grant record (R70). `answered` and `guarded` are set once its findings (R93) or its guard sample (R112) have been
handed over, each of which happens once. -/
structure GrantRecord where
  unit     : Nat
  kind     : GrantKind
  start    : Nat
  length   : Nat
  pc       : Nat
  pe       : Nat
  busy     : Bool
  answered : Bool
  guarded  : Bool
  deriving DecidableEq, Repr

/-- A held plan (R70): its round, its grant records in the order of R5, and how many responses of its discovery window have
been accepted (R16). -/
structure Plan where
  round    : Nat
  grants   : List GrantRecord
  accepted : Nat
  deriving DecidableEq, Repr

/-- Grant Scheduler. `plans` holds the plans whose arrival rounds have not ended, oldest first; `intervalCount` is 64 from the
plan that reaches it until the interval close it causes has been taken (R89, R90). -/
structure Grants where
  plans         : List Plan
  servicePtr    : UnitNo
  intervalSum   : Nat
  intervalCount : Nat
  deriving DecidableEq, Repr

/-! ### Burst Meter (chapter 5) -/

/-- Burst Meter: the interfered burst count (R103). -/
structure BurstMeter where
  interfered : Nat
  deriving DecidableEq, Repr

/-! ### Light Monitor (chapter 6) -/

/-- The phases of the isolation machine (6.4). -/
inductive IsoPhase where
  | watch
  | confirm
  | bisect
  | holdoff
  deriving DecidableEq, Repr

/-- The three steps of the machine: HUSH_ALL (R121), SPEAK_UNIT for L and HUSH_UNIT for H (R123). -/
inductive StepKind where
  | confirm
  | speak
  | hush
  deriving DecidableEq, Repr

/-- Where the current step stands (R117). `emptied` is a step that removals left without orders: it is not offered and counts
as carried in the next frame (R119). -/
inductive StepState where
  | idle
  | waiting
  | emptied
  | toCarry
  | settling
  | sampling
  deriving DecidableEq, Repr

/-- The verdict that opened HOLDOFF (R117). -/
inductive HoldCause where
  | unlocated
  | unenrolled
  | none
  deriving DecidableEq, Repr

/-- From which arrival round WATCH counts dark judgements (R117, R118). -/
inductive CountFrom where
  | any
  | held
  | fromRound (round : Nat)
  deriving DecidableEq, Repr

/-- A closing offer: its orders and the hush flags its carriage clears (R126 to R129). -/
structure ClosingOffer where
  orders : List PuOrder
  clears : ClearSet
  deriving DecidableEq, Repr

/-- Hush flags to be cleared at the round-marker event after the frame that carried the step (R119); `due` once that event
has come. -/
structure Clearing where
  clears : ClearSet
  due    : Bool
  deriving DecidableEq, Repr

/-- The isolation machine (R117). `stepClears` are the flags the step now in the order queue clears (log entry 26); `restep` is
set while a new SPEAK_UNIT step waits for the carriage of the step in the queue (R130); `stepDue` is set by the frame after a
refusal (R119); `closingOut` counts closing offers taken and not yet carried (R118). -/
structure Isolation where
  phase      : IsoPhase
  litRun     : Nat
  cand       : List UnitNo
  speak      : List UnitNo
  hush       : List UnitNo
  hushedSet  : List UnitNo
  step       : StepState
  stepKind   : StepKind
  stepClears : List UnitNo
  restep     : Bool
  stepDue    : Bool
  carriage   : Nat
  samples    : Nat
  litSamples : Nat
  holdoff    : Nat
  cause      : HoldCause
  closing    : List ClosingOffer
  closingOut : Nat
  countFrom  : CountFrom
  clearings  : List Clearing
  deriving DecidableEq, Repr

/-- A BAR_SERIAL standing alone that the queue refused (R114); `due` once a frame has been assembled since. -/
structure WaitingBar where
  serial : Serial
  due    : Bool
  deriving DecidableEq, Repr

/-- Light Monitor: the last dark judgement (R111), the machine and the BAR_SERIAL orders waiting to be offered again. -/
structure LightMonitor where
  lastDark : Bool
  iso      : Isolation
  barWait  : List WaitingBar
  deriving DecidableEq, Repr

/-! ### Usage Counter Bank (chapter 7) -/

/-- A counter set (R135). -/
structure CounterSet where
  up        : Vector Nat 4
  down      : Vector Nat 4
  excess    : Nat
  busy      : Nat
  saturated : Bool
  deriving DecidableEq, Repr

/-- A set of zeros with the saturated flag clear (R135). -/
def CounterSet.zero : CounterSet :=
  { up := Vector.replicate 4 0, down := Vector.replicate 4 0, excess := 0, busy := 0, saturated := false }

/-- Where a snapshot stands with the shelf bus (R140). -/
inductive NoticeState where
  | unqueued
  | queued
  | onLine
  deriving DecidableEq, Repr

/-- A snapshot (R140). -/
structure Snapshot where
  counters     : CounterSet
  takeNo       : Nat
  isFinal      : Bool
  disputed     : Bool
  notice       : NoticeState
  closePending : Bool
  deriving DecidableEq, Repr

/-- What the UCB holds for one record: its live set, its take number and its snapshot (R135, R140). -/
structure Account where
  live     : CounterSet
  takeNo   : Nat
  snapshot : Option Snapshot
  deriving DecidableEq, Repr

/-- Usage Counter Bank. `paceDue` is set by a round-marker event at which an unqueued snapshot waits and fewer than four
notices are out (R145). -/
structure UsageBank where
  accounts : Vector Account 64
  band     : Band
  out      : Nat
  pacePtr  : UnitNo
  paceDue  : Bool
  deriving DecidableEq, Repr

/-! ### District View (chapter 8) -/

/-- A load-table entry (R153). -/
structure LoadEntry where
  load    : Nat
  age     : Nat
  present : Bool
  deriving DecidableEq, Repr

/-- A claims-list entry (R157). -/
structure ClaimEntry where
  serial : Serial
  peer   : TreeStation
  level  : Nat
  kind   : StoredClaim
  age    : Nat
  deriving DecidableEq, Repr

/-- The reasons of a bar (R162). -/
inductive BarReason where
  | rogue
  | tail
  deriving DecidableEq, Repr

/-- A barred-list entry (R162). -/
structure BarEntry where
  serial : Serial
  origin : TreeStation
  reason : BarReason
  deriving DecidableEq, Repr

/-- A bar notice reported lost (R163). -/
structure LostBar where
  serial : Serial
  reason : BarReason
  due    : Bool
  deriving DecidableEq, Repr

/-- District View. -/
structure District where
  loads          : Vector LoadEntry 16
  factor         : Nat
  claims         : List ClaimEntry
  claimsOverflow : Nat
  barred         : List BarEntry
  evictions      : Nat
  lostBars       : List LostBar
  deriving DecidableEq, Repr

/-! ### Shelf Bus Port (chapter 9) -/

/-- The outcomes of an answer (R180). -/
inductive AnswerOutcome where
  | done
  | notReady
  | locked
  | badField
  | full
  | unknownSerial
  | busy
  | wrongState
  | barred
  deriving DecidableEq, Repr

/-- The kind data of an answer (R180). -/
inductive KindData where
  | none
  | take (taken skipped : Nat)
  | unbar (entries overflow evictions : Nat)
  deriving DecidableEq, Repr

/-- The body of a usage notice (R144, 9.8.4). -/
structure UsageBody where
  unit      : UnitNo
  serial    : Serial
  takeNo    : Nat
  isFinal   : Bool
  disputed  : Bool
  counters  : CounterSet
  deriving DecidableEq, Repr

/-- The body of an answer, with its destination (R180). -/
structure AnswerBody where
  dest     : BusStation
  tag      : BitVec 16
  kind     : Byte
  outcome  : AnswerOutcome
  recvErr  : Nat
  refused  : Nat
  phase    : Phase
  data     : KindData
  deriving DecidableEq, Repr

/-- The fields of a load notice as the part fills them (R181). -/
structure LoadFields where
  load          : Nat
  undeliverable : Nat
  interfered    : Nat
  lineFaults    : Nat
  isolation     : IsoPhase
  active        : Nat
  deriving DecidableEq, Repr

/-- What a notice of the part carries (R172). A usage notice stands for its unit's snapshot until its body is fixed (R144).
A claim names the record that queued it, which is not sent. -/
inductive NoticeBody where
  | alarm (kind : AlarmKind) (count : Nat) (subject : Option Serial)
  | answer (body : AnswerBody)
  | claim (serial : Serial) (level : Nat) (kind : ClaimKind) (owner : UnitNo)
  | bar (serial : Serial) (reason : BarReason)
  | load (fields : LoadFields)
  | usage (unit : UnitNo) (fixed : Option UsageBody)
  | presence (cause : ResetCause) (reach : ReachClass)
  deriving DecidableEq, Repr

/-- A notice and the number the model gives it, which is not sent: it tells which notice a report is about. -/
structure Notice where
  ref  : Nat
  body : NoticeBody
  deriving DecidableEq, Repr

/-- The transmit slot's notice (R177); `sending` is clear while it waits for the next quiet after a lost arbitration. -/
structure Slot where
  notice  : Notice
  sending : Bool
  deriving DecidableEq, Repr

/-- Shelf Bus Port. The outbox is held head first (R175). `quiet` is the count of recessive bit times in a row, as the last
command that tells of the line left it, and `heardQuiet` is set once the count has reached 12 since reset release: until then
the line is treated as busy (R169; log entry 16). -/
structure ShelfBus where
  quiet      : Nat
  heardQuiet : Bool
  outbox     : List Notice
  slot       : Option Slot
  lineFaults : Nat
  recvErrors : Nat
  refused    : Nat
  nextRef    : Nat
  deriving DecidableEq, Repr

/-! ### Alarm Table (chapter 10) -/

/-- An alarm record (R185). -/
structure AlarmRecord where
  raised  : Bool
  subject : Option Serial
  waiting : List Serial
  count   : Nat
  reoffer : Reoffer
  deriving DecidableEq, Repr

/-- An alarm record at reset (R185). -/
def AlarmRecord.clear : AlarmRecord :=
  { raised := false, subject := none, waiting := [], count := 0, reoffer := .idle }

/-- Alarm Table: the twenty records, in kind-number order. -/
structure AlarmTable where
  records : Vector AlarmRecord 20
  deriving DecidableEq, Repr

/-! ### Premises units (1.7) -/

/-- What a premises unit holds beside its serial (R18). -/
structure PuState where
  unit     : Option UnitNo
  eqd      : Option Nat
  softHush : Bool
  firmHush : Bool
  deriving DecidableEq, Repr

/-- What a premises unit sends on one grant entry (R18): a burst under its unit number, with the bit after the downstream marker
at which it starts (R2), or a discovery response, whose start its spread decides (R3). -/
inductive PuSend where
  | burst (unit : UnitNo) (entry : GrantEntry) (start : Nat)
  | response (entry : GrantEntry)
  deriving DecidableEq, Repr

/-- A premises unit that has a line of its own in the table: what it holds, and what it sends on the entries of the last
frame. -/
structure PuEntry where
  serial : Serial
  state  : PuState
  sends  : List PuSend
  deriving DecidableEq, Repr

/-- The premises units: those that some order has named, and what every other one holds and sends. What they hold governs them
from the grant map of the next frame on (R19); what they send answers the grant map of the last one (R18). `draw` counts the
frames: it is the index of the free values that a premises unit itself chooses (log entry 24). -/
structure PuTable where
  listed     : List PuEntry
  others     : PuState
  othersSend : List PuSend
  draw       : Nat
  deriving DecidableEq, Repr

/-! ### The whole part -/

/-- The state of the part, the queue of commands that wait, and the premises units. `freeIndex` counts the uses of free
values (log entry 4); `held` is set while the reset is held (R196). -/
structure State where
  pending   : List Instr
  held      : Bool
  sc        : StartCtl
  tli       : TreeLine
  ut        : Vector UnitRecord 64
  ec        : Enrolment
  gs        : Grants
  bm        : BurstMeter
  lm        : LightMonitor
  ucb       : UsageBank
  dv        : District
  sbp       : ShelfBus
  alarms    : AlarmTable
  pus       : PuTable
  freeIndex : Nat
  deriving DecidableEq, Repr

/-- No command of this block stops it with a fault: the spec describes what every event does. -/
inductive Fault where
  deriving DecidableEq, Repr

/-- Why a step gives no next state. -/
inductive Refusal where
  /-- Raised by `exec` alone, for a command whose meaning has not been written. Safe: the model stops. No arm of this model
  raises it. -/
  | notModelled (mnemonic : String)
  deriving DecidableEq, Repr

/-! ### Reset -/

/-- The isolation machine at reset (R117). -/
def Isolation.atReset : Isolation :=
  { phase := .watch, litRun := 0, cand := [], speak := [], hush := [], hushedSet := [], step := .idle, stepKind := .confirm,
    stepClears := [], restep := false, stepDue := false, carriage := 0, samples := 0, litSamples := 0, holdoff := 0,
    cause := .none, closing := [], closingOut := 0, countFrom := .any, clearings := [] }

/-- What the EC holds beside a record at reset (R50, R57, R59). -/
def EcUnit.blank : EcUnit :=
  { measurement := none, attemptPending := false, lastCarriage := none, assignWait := .idle, claimRef := none }

/-- What the UCB holds for a record at reset (R135, R140). -/
def Account.blank : Account := { live := .zero, takeNo := 0, snapshot := none }

/-- The first of power-on, brown-out and reset pin that was present (R190). -/
def ResetCause.first (c : ResetCauses) : ResetCause :=
  if c.powerOn then .powerOn else if c.brownOut then .brownOut else .resetPin

/-- The part right after reset release, with the straps sampled and the cause recorded: every block holds the values of its
"At reset" lines, and the presence notice has been offered to the empty outbox (R190, R191, R196). The commands that wait, the
premises units and the count of free values are no part of what a reset clears. -/
def State.released (pins : Straps) (cause : ResetCause) (pending : List Instr) (pus : PuTable) (freeIndex : Nat) : State :=
  { pending := pending
    held := false
    sc := { station := pins.station, reach := pins.reach, cause := cause, phase := .listen, listenCount := 400,
            enlistCount := 0, settings := none, presence := .idle, restartEnds := false, ticked := false }
    tli := { nextRound := 0, lastFrame := none, queue := [], stream := [], holdOff := false, undeliverable := 0,
             upstream := [] }
    ut := Vector.replicate 64 UnitRecord.blank
    ec := { permits := [], strangers := [], sinceDiscovery := 1024, rangingQueue := [],
            units := Vector.replicate 64 EcUnit.blank, lostClaims := [] }
    gs := { plans := [], servicePtr := 0, intervalSum := 0, intervalCount := 0 }
    bm := { interfered := 0 }
    lm := { lastDark := false, iso := Isolation.atReset, barWait := [] }
    ucb := { accounts := Vector.replicate 64 Account.blank, band := 0, out := 0, pacePtr := 63, paceDue := false }
    dv := { loads := (Vector.replicate 16 { load := 0, age := 0, present := false }).set pins.station
              { load := 0, age := 0, present := true },
            factor := 256, claims := [], claimsOverflow := 0, barred := [], evictions := 0, lostBars := [] }
    sbp := { quiet := 0, heardQuiet := false, outbox := [{ ref := 0, body := .presence cause pins.reach }], slot := none, lineFaults := 0, recvErrors := 0,
             refused := 0, nextRef := 1 }
    alarms := { records := Vector.replicate 20 AlarmRecord.clear }
    pus := pus
    freeIndex := freeIndex }

/-- A premises unit of which the part has seen nothing: no unit number, no EqD, no hush (log entry 6). -/
def PuState.fresh : PuState := { unit := none, eqd := none, softHush := false, firmHush := false }

/-- The machine right after reset (R196). The straps are pins whose levels the spec leaves to the installation: station 0,
reach class N and the cause power-on are the model's choice (log entry 1), as is that no premises unit holds anything
(log entry 6). -/
def State.reset : State :=
  State.released { station := 0, reach := .n } .powerOn [] { listed := [], others := .fresh, othersSend := [], draw := 0 } 0

end Sys2Proof.Machine
end

