-- ==== Sys2Proof/Machine/Operands.lean ====
section
/-!
DEFINITION. The forms in which things cross the ports: byte order, the four cyclic checks, the tree line formats (1.9), the
readings of the light monitor (R17), a burst's place and checks (R14, R15), and the shelf bus formats (9.8), in both
directions.
-/
namespace Sys2Proof.Machine

/-! ### Byte order (0.6.8) -/

/-- The `k` low bytes of `n`, most significant byte first. -/
def beBytes : Nat → Nat → List Byte
  | 0, _ => []
  | k + 1, n => BitVec.ofNat 8 (n / 256 ^ k) :: beBytes k n

/-- The number that a list of bytes spells, most significant byte first. -/
def beNat (l : List Byte) : Nat := l.foldl (fun a b => a * 256 + b.toNat) 0

/-- The number in the `k` bytes at place `i` of `l`. -/
def fieldAt (i k : Nat) (l : List Byte) : Nat := beNat ((l.drop i).take k)

/-! ### Cyclic checks -/

/-- One bit into a check register with generator `poly`. -/
def crcBit {w : Nat} (poly reg : BitVec w) (b : Bool) : BitVec w :=
  if reg.msb != b then (reg <<< 1) ^^^ poly else reg <<< 1

/-- One byte, most significant bit first (0.6.8). -/
def crcByte {w : Nat} (poly reg : BitVec w) (b : Byte) : BitVec w :=
  [7, 6, 5, 4, 3, 2, 1, 0].foldl (fun r i => crcBit poly r (b.getLsbD i)) reg

/-- The check of a list of bytes. -/
def crc {w : Nat} (poly preset : BitVec w) (l : List Byte) : BitVec w := l.foldl (crcByte poly) preset

/-- The header check (R14): generator x^8 + x^2 + x + 1, preset zero. -/
def crcHeader (l : List Byte) : BitVec 8 := crc 0x07 0 l

/-- The burst check and the frame check (R14, 1.9.1): preset all ones, the final value inverted. -/
def crcBurst (l : List Byte) : BitVec 32 := ~~~ crc 0x1EDC6F41 0xFFFFFFFF l

/-- The notice check (R172): generator x^16 + x^12 + x^5 + 1, preset all ones. -/
def crcNotice (l : List Byte) : BitVec 16 := crc 0x1021 0xFFFF l

/-! ### Reach classes (0.6.2) -/

/-- RTDmin in upstream bits. -/
def rtdMin : ReachClass → Nat
  | .n => 32000
  | .f => 96000

/-- Teq in upstream bits. -/
def teq : ReachClass → Nat
  | .n => 160000
  | .f => 320000

/-- The span in grains. -/
def span : ReachClass → Nat
  | .n => 4000
  | .f => 7000

/-! ### Light readings (R17) -/

/-- A reading above 1,023 is read as level code 1,023. -/
def readAs (n : Nat) : Nat := min 1023 n

/-- The highest reading over a stretch, as a level code. -/
def peakLevel (l : List Nat) : Nat := (l.map readAs).foldl max 0

/-- The floor of the mean reading over a stretch, as a level code. -/
def meanLevel (l : List Nat) : Nat := (l.map readAs).sum / l.length

/-! ### Bursts (R14, R15) -/

/-- Bytes 0 to 6 of a burst header (1.9.4). -/
def headerBytes (h : BurstHeader) : List Byte :=
  h.unit :: h.kind :: (beBytes 2 h.report.toNat ++ beBytes 2 h.dlen.toNat ++ [h.spread])

/-- The header check passes (R14). -/
def headerOk (h : BurstHeader) : Bool := crcHeader (headerBytes h) == h.check

/-- The burst check of a payload of `grains` grains passes (R14). A payload of another size is no reading of that grant. -/
def burstOk (grains : Nat) (b : Burst) : Bool :=
  b.payload.length == 4 * grains && crcBurst (headerBytes b.header ++ [b.header.check] ++ b.payload) == b.check

/-- The measured origin: six grains before the delimiter (R15). It may lie before the arrival round's first bit. -/
def burstOrigin (b : Burst) : Int := (b.pos : Int) - 192

/-- δ, the measured origin less the expected origin at grain `start` (R15). -/
def burstDelta (start : Nat) (b : Burst) : Int := burstOrigin b - 32 * (start : Int)

/-- A delimiter counts as found when its first bit lies in the stretch of grains `first` to `first + length - 1` (R15, R16). -/
def foundIn (first length : Nat) : Option Burst → Option Burst
  | none => none
  | some b => if 32 * first ≤ b.pos ∧ b.pos < 32 * (first + length) then some b else none

/-- The serial in a discovery response's payload: its first eight bytes (R14). -/
def payloadSerial (b : Burst) : Serial := BitVec.ofNat 64 (fieldAt 0 8 b.payload)

/-! ### Tree line formats (1.9) -/

/-- The kind byte of a grant entry (1.9.2). -/
def GrantKind.code : GrantKind → Nat
  | .data => 1
  | .reportOnly => 2
  | .ranging => 3
  | .discovery => 4

/-- A grant entry's six bytes (1.9.2). -/
def GrantEntry.bytes (e : GrantEntry) : List Byte :=
  beBytes 1 e.unit ++ beBytes 1 e.kind.code ++ beBytes 2 e.start ++ beBytes 2 e.length

/-- An order's bytes (1.9.3). -/
def PuOrder.bytes : PuOrder → List Byte
  | .assign u x q => [1] ++ beBytes 1 u.val ++ beBytes 8 x.toNat ++ beBytes 3 q
  | .eqd u q => [2] ++ beBytes 1 u.val ++ beBytes 3 q
  | .hushUnit u => [3] ++ beBytes 1 u.val
  | .speakUnit u => [4] ++ beBytes 1 u.val
  | .hushAll => [5]
  | .speakAll => [6]
  | .barSerial x => [7] ++ beBytes 8 x.toNat
  | .dropUnit u => [8] ++ beBytes 1 u.val

/-- A downstream packet behind its three-byte tag (1.9.1). -/
def Packet.bytes (p : Packet) : List Byte := beBytes 1 p.tag ++ beBytes 2 p.data.length ++ p.data

/-- The frame header's five bytes (1.9.1). -/
def Frame.header (f : Frame) : List Byte :=
  beBytes 2 f.round ++ beBytes 1 f.mark.toNat ++ beBytes 1 f.entries.length ++ beBytes 1 f.orders.length

/-- A frame's bytes before its check, in the order of R5. -/
def Frame.content (f : Frame) : List Byte :=
  f.header ++ f.entries.flatMap GrantEntry.bytes ++ f.orders.flatMap PuOrder.bytes ++ f.packets.flatMap Packet.bytes

/-- A frame's bytes with the frame check over all before it (R5). -/
def Frame.bytes (f : Frame) : List Byte := f.content ++ beBytes 4 (crcBurst f.content).toNat

/-! ### Shelf bus formats the part sends (9.8, 10.4) -/

/-- An alarm kind's number, 1..20 (10.1). -/
def alarmNumber : AlarmKind → Nat
  | .rogueCondemned => 1
  | .rogueUnlocated => 2
  | .rogueUnenrolled => 3
  | .duplicateSerial => 4
  | .barredInService => 5
  | .settingsDefaulted => 6
  | .unitLost => 7
  | .unitGone => 8
  | .rangingFailed => 9
  | .reachEdge => 10
  | .misaligned => 11
  | .tailRerange => 12
  | .tableFull => 13
  | .counterSaturated => 14
  | .outboxOverflow => 15
  | .stranger => 16
  | .barredSeen => 17
  | .claimYielded => 18
  | .outOfReach => 19
  | .unitJoined => 20

/-- The alarm kinds in number order (10.1). -/
def alarmKinds : List AlarmKind :=
  [.rogueCondemned, .rogueUnlocated, .rogueUnenrolled, .duplicateSerial, .barredInService, .settingsDefaulted, .unitLost,
   .unitGone, .rangingFailed, .reachEdge, .misaligned, .tailRerange, .tableFull, .counterSaturated, .outboxOverflow,
   .stranger, .barredSeen, .claimYielded, .outOfReach, .unitJoined]

/-- The kind that an ALARM_CLEAR order's byte names, if it is 1..20 (R189). -/
def alarmOfByte (b : Byte) : Option AlarmKind := alarmKinds.find? (fun k => alarmNumber k == b.toNat)

/-- The classes of the alarm kinds (10.1). -/
inductive AlarmClass where
  | severe
  | degrading
  | notable
  deriving DecidableEq, Repr

/-- The class of a kind (10.1). -/
def alarmClass (k : AlarmKind) : AlarmClass :=
  if alarmNumber k ≤ 6 then .severe else if alarmNumber k ≤ 15 then .degrading else .notable

/-- The class code of an alarm notice (R188). -/
def AlarmClass.code : AlarmClass → Nat
  | .severe => 1
  | .degrading => 2
  | .notable => 3

/-- The phase code of an answer (R180). -/
def Phase.code : Phase → Nat
  | .listen => 1
  | .enlist => 2
  | .serving => 3
  | .restarting => 4

/-- The outcome code of an answer (R180). -/
def AnswerOutcome.code : AnswerOutcome → Nat
  | .done => 1
  | .notReady => 2
  | .locked => 3
  | .badField => 4
  | .full => 5
  | .unknownSerial => 6
  | .busy => 7
  | .wrongState => 8
  | .barred => 9

/-- The kind code of a claim notice (9.8.5). -/
def ClaimKind.code : ClaimKind → Nat
  | .claiming => 1
  | .held => 2
  | .released => 3

/-- The reason code of a bar notice (9.8.5). -/
def BarReason.code : BarReason → Nat
  | .rogue => 1
  | .tail => 2

/-- The isolation state of a load notice (R181). -/
def IsoPhase.code : IsoPhase → Nat
  | .watch => 0
  | .confirm => 1
  | .bisect => 2
  | .holdoff => 3

/-- The cause byte of a presence notice (9.8.6). -/
def ResetCause.code : ResetCause → Nat
  | .powerOn => 1
  | .brownOut => 2
  | .resetPin => 3

/-- The reach class byte of a presence notice (9.8.6). -/
def reachCode : ReachClass → Nat
  | .n => 0
  | .f => 1

/-- The class of a notice (R172). -/
def NoticeBody.cls : NoticeBody → Nat
  | .alarm _ _ _ => 0
  | .answer _ => 2
  | .claim _ _ _ _ => 3
  | .bar _ _ => 4
  | .load _ => 5
  | .usage _ _ => 6
  | .presence _ _ => 7

/-- Where a notice goes: an answer to the order's sender, every other notice to all stations (R172). -/
def NoticeBody.dest : NoticeBody → BusStation
  | .answer a => a.dest
  | _ => 31

/-- An answer's kind data (R180). -/
def KindData.bytes : KindData → List Byte
  | .none => []
  | .take t k => beBytes 1 t ++ beBytes 1 k
  | .unbar n o e => beBytes 1 n ++ beBytes 2 o ++ beBytes 2 e

/-- The flags byte of a usage notice: bit 0 final, bit 1 disputed, bit 2 saturated (9.8.4). -/
def UsageBody.flags (b : UsageBody) : Nat := b.isFinal.toNat + 2 * b.disputed.toNat + 4 * b.counters.saturated.toNat

/-- The 72 bytes of a usage notice (9.8.4). -/
def UsageBody.bytes (b : UsageBody) : List Byte :=
  beBytes 1 b.unit.val ++ beBytes 8 b.serial.toNat ++ beBytes 2 b.takeNo ++ beBytes 1 b.flags
    ++ b.counters.up.toList.flatMap (beBytes 6) ++ b.counters.down.toList.flatMap (beBytes 6)
    ++ beBytes 6 b.counters.excess ++ beBytes 6 b.counters.busy

/-- The body bytes of a notice of the part (9.8, R188). A usage notice has bytes once its body is fixed (R144). -/
def NoticeBody.bytes : NoticeBody → List Byte
  | .alarm k c x =>
      beBytes 1 (alarmNumber k) ++ beBytes 1 (alarmClass k).code ++ beBytes 2 c ++ (x.map (fun v => beBytes 8 v.toNat)).getD []
  | .answer a =>
      beBytes 2 a.tag.toNat ++ [a.kind] ++ beBytes 1 a.outcome.code ++ beBytes 2 a.recvErr ++ beBytes 2 a.refused
        ++ beBytes 1 a.phase.code ++ a.data.bytes
  | .claim x l k _ => beBytes 8 x.toNat ++ beBytes 2 l ++ beBytes 1 k.code
  | .bar x r => beBytes 8 x.toNat ++ beBytes 1 r.code
  | .load f =>
      beBytes 2 f.load ++ beBytes 4 f.undeliverable ++ beBytes 4 f.interfered ++ beBytes 2 f.lineFaults
        ++ beBytes 1 f.isolation.code ++ beBytes 1 f.active
  | .usage _ b => (b.map UsageBody.bytes).getD []
  | .presence c r => beBytes 1 c.code ++ beBytes 1 (reachCode r)

/-- A notice's bytes on the line, from any sender: arbitration field, destination, length, body, check (9.8.1, R172). -/
def noticeBytes (cls sender dest : Nat) (body : List Byte) : List Byte :=
  let front := beBytes 1 (32 * cls + sender) ++ beBytes 1 dest ++ beBytes 1 body.length ++ body
  front ++ beBytes 2 (crcNotice front).toNat

/-- The bytes the part drives for a notice, with its strapped number as the sender (R172). -/
def Notice.bytes (station : TreeStation) (n : Notice) : List Byte :=
  noticeBytes n.body.cls station.val n.body.dest.val n.body.bytes

/-! ### Shelf bus formats the part receives (9.8, R173) -/

/-- What the receive checks of R173 leave of a notice. -/
inductive Heard where
  /-- A check failed: the notice is discarded and the receive error count rises. -/
  | faulty
  /-- Its destination is no station number: ignored, not counted. -/
  | elsewhere
  /-- It passed every check but that of the destination, which `head` still holds. -/
  | whole (cls : Nat) (head : NoticeHead) (body : List Byte)
  deriving DecidableEq, Repr

/-- The body length that a class demands: claim 11, bar 9, load 14, usage 72, presence 2 (R172, R173). -/
def classLength : Nat → Option Nat
  | 3 => some 11
  | 4 => some 9
  | 5 => some 14
  | 6 => some 72
  | 7 => some 2
  | _ => none

/-- The checks of R173 on a notice's bytes, in their order. -/
def hearNotice (framed : Bool) : List Byte → Heard
  | b0 :: b1 :: b2 :: rest =>
    let body := rest.take b2.toNat
    let cls := b0.toNat / 32
    if !framed then .faulty
    else if 72 < b2.toNat then .faulty
    else if rest.length < b2.toNat + 2 then .faulty
    else if crcNotice (b0 :: b1 :: b2 :: body) ≠ BitVec.ofNat 16 (fieldAt b2.toNat 2 rest) then .faulty
    else if (classLength cls).getD body.length ≠ body.length then .faulty
    else if h : b1.toNat < 32 then .whole cls ⟨⟨b0.toNat % 32, Nat.mod_lt _ (by decide)⟩, ⟨b1.toNat, h⟩⟩ body
    else .elsewhere
  | _ => .faulty

/-- An order, by its kind and fields (9.8.2). `malformed` has a kind byte outside 1..10 or a wrong length (R179). -/
inductive Order where
  | settings (fields : SettingsFields)
  | permit (serial : Serial) (codes : ProfileCodes)
  | withdraw (serial : Serial)
  | revoke (serial : Serial)
  | profile (serial : Serial) (codes : ProfileCodes)
  | band (band : Byte)
  | take
  | alarmClear (kind : Byte)
  | unbar (serial : Serial)
  | restart
  | malformed (kind : Byte)
  deriving DecidableEq, Repr

/-- The kind byte of an order (9.8.2). -/
def Order.kindByte : Order → Byte
  | .settings _ => 1
  | .permit _ _ => 2
  | .withdraw _ => 3
  | .revoke _ => 4
  | .profile _ _ => 5
  | .band _ => 6
  | .take => 7
  | .alarmClear _ => 8
  | .unbar _ => 9
  | .restart => 10
  | .malformed k => k

/-- The bytes of an order's fields after the tag (9.8.2, 9.8.7). -/
def Order.fieldBytes : Order → List Byte
  | .settings f =>
      beBytes 2 f.sources.toNat ++ beBytes 2 f.tdark.toNat ++ beBytes 3 f.budget.toNat ++ beBytes 2 f.interval.toNat
        ++ [f.litCount, f.mask]
  | .permit x c => beBytes 8 x.toNat ++ [c.m, c.s, c.pk, c.w]
  | .withdraw x => beBytes 8 x.toNat
  | .revoke x => beBytes 8 x.toNat
  | .profile x c => beBytes 8 x.toNat ++ [c.m, c.s, c.pk, c.w]
  | .band b => [b]
  | .take => []
  | .alarmClear k => [k]
  | .unbar x => beBytes 8 x.toNat
  | .restart => []
  | .malformed _ => []

/-- An order's body (9.8.2). -/
def orderBody (tag : BitVec 16) (o : Order) : List Byte := o.kindByte :: (beBytes 2 tag.toNat ++ o.fieldBytes)

/-- The serial at the head of an order's fields. -/
def serialAt (l : List Byte) : Serial := BitVec.ofNat 64 (fieldAt 0 8 l)

/-- The byte at place `i`. -/
def byteAt (i : Nat) (l : List Byte) : Byte := l.getD i 0

/-- The profile codes after the serial of a PERMIT or PROFILE order (9.8.2). -/
def codesAt (l : List Byte) : ProfileCodes := ⟨byteAt 8 l, byteAt 9 l, byteAt 10 l, byteAt 11 l⟩

/-- The fields of a SETTINGS order (9.8.7). -/
def settingsAt (l : List Byte) : SettingsFields :=
  { sources := BitVec.ofNat 16 (fieldAt 0 2 l), tdark := BitVec.ofNat 16 (fieldAt 2 2 l),
    budget := BitVec.ofNat 24 (fieldAt 4 3 l), interval := BitVec.ofNat 16 (fieldAt 7 2 l),
    litCount := byteAt 9 l, mask := byteAt 10 l }

/-- The order that a kind byte and the bytes after the tag spell, by kind and length (9.8.2, step 1 of R179). -/
def orderOf (kind : Byte) (l : List Byte) : Order :=
  match kind.toNat, l.length with
  | 1, 11 => .settings (settingsAt l)
  | 2, 12 => .permit (serialAt l) (codesAt l)
  | 3, 8 => .withdraw (serialAt l)
  | 4, 8 => .revoke (serialAt l)
  | 5, 12 => .profile (serialAt l) (codesAt l)
  | 6, 1 => .band (byteAt 0 l)
  | 7, 0 => .take
  | 8, 1 => .alarmClear (byteAt 0 l)
  | 9, 8 => .unbar (serialAt l)
  | 10, 0 => .restart
  | _, _ => .malformed kind

end Sys2Proof.Machine
end

