-- ==== Sys2Proof/Machine/Flags.lean ====
section
/-!
DEFINITION. The conditions and derived quantities that the rules test: what a record's state and profile say, which countdowns
have run out, what the settings in force decide. Each is computed from the state and changes nothing.
-/
namespace Sys2Proof.Machine

/-! ### Settings -/

/-- The settings in force: those taken or defaulted, and until then the defaults (R193; R111, R118, R156, R178, R187). -/
def inForce (s : State) : Settings := s.sc.settings.getD Settings.defaults

/-- A level code is lit when it exceeds Tdark (R111). -/
def isLit (code : Nat) (s : State) : Bool := decide ((inForce s).tdark < code)

/-- A kind is masked when its class flag is set in the settings in force (R187). -/
def masked (k : AlarmKind) (s : State) : Bool :=
  match alarmClass k with
  | .severe => (inForce s).maskSevere
  | .degrading => (inForce s).maskDegrading
  | .notable => (inForce s).maskNotable

/-- The order-source set holds the sender: one of stations 16..30 whose bit is set (R178, 9.8.7). -/
def sourceAllowed (sender : BusStation) (s : State) : Bool :=
  decide (16 ≤ sender.val) && decide (sender.val ≤ 30) && (inForce s).sources.getLsbD (sender.val - 16)

/-- The restart mark of a frame assembled now: set outside SERVING (R6). -/
def restartMark (s : State) : Bool := s.sc.phase != .serving

/-! ### Records -/

/-- In ACTIVE or LOST. -/
def serves (r : UnitRecord) : Bool := r.state == .active || r.state == .lost

/-- In ACTIVE, LOST or RANGING, the states that a hush and a take concern (R121, R141). -/
def onTree (r : UnitRecord) : Bool := r.state == .active || r.state == .lost || r.state == .ranging

/-- In CLAIMING, or in RANGING with returning clear: a record that has never been in service (R37). -/
def neverServed (r : UnitRecord) : Bool := r.state == .claiming || (r.state == .ranging && !r.returning)

/-- In ACTIVE, in LOST, or in RANGING with returning set: a record that retires (R35). -/
def inService (r : UnitRecord) : Bool := serves r || (r.state == .ranging && r.returning)

/-- The record may be allocated: FREE, cooling 0 and drop pending clear (R30). -/
def allocatable (r : UnitRecord) : Bool := r.state == .free && decide (r.cooling = 0) && !r.dropPending

/-- A non-FREE record that holds the serial (R24). -/
def holds (x : Serial) (r : UnitRecord) : Bool := r.state != .free && r.serial == some x

/-- The claim settle of a CLAIMING record has started and reached 0 (R28, R52). -/
def settleExpired (r : UnitRecord) : Bool := r.state == .claiming && r.settleStarted && decide (r.claimSettle = 0)

/-- The LOST hold of a LOST record has reached 0 (R28, R34). -/
def lostHoldExpired (r : UnitRecord) : Bool := r.state == .lost && decide (r.lostHold = 0)

/-- The claim refresh of an ACTIVE or LOST record has reached 0 (R28, R161). -/
def refreshExpired (r : UnitRecord) : Bool := serves r && decide (r.claimRefresh = 0)

/-- The tail span has reached 64 with fewer than four events (R115). -/
def tailSpanOver (r : UnitRecord) : Bool := decide (64 ≤ r.tailSpan) && decide (r.tailEvents < 4)

/-! ### Profiles (R25, R73) -/

/-- The committed rate CRq = m × 16 × 4^s, in 1/256 grain per round. -/
def crq (p : Profile) : Nat := p.m * 16 * 4 ^ p.s

/-- The bucket depth Bmax = max(8 × CRq, 3,072). -/
def bmax (p : Profile) : Nat := max (8 * crq p) 3072

/-- The peak PK = 8 × pk grains. -/
def peak (p : Profile) : Nat := 8 * p.pk

/-- The codes of an order lie in their ranges: s 0..3, pk 1..255, W 0..15 (R39, R41). -/
def codesOk (c : ProfileCodes) : Bool := decide (c.s.toNat ≤ 3) && decide (1 ≤ c.pk.toNat) && decide (c.w.toNat ≤ 15)

/-- The profile that checked codes spell. -/
def profileOf (c : ProfileCodes) : Profile := ⟨c.m.toNat, c.s.toNat, c.pk.toNat, c.w.toNat⟩

/-! ### The order queue's groups (R8) -/

/-- The priority group of an order. -/
def orderGroup : PuOrder → Nat
  | .hushUnit _ => 1
  | .speakUnit _ => 1
  | .hushAll => 1
  | .speakAll => 1
  | .barSerial _ => 1
  | .assign _ _ _ => 2
  | .eqd _ _ => 2
  | .dropUnit _ => 3

/-- An ASSIGN for unit `u`. -/
def isAssignFor (u : UnitNo) : PuOrder → Bool
  | .assign v _ _ => v == u
  | _ => false

/-- An EQD for unit `u`. -/
def isEqdFor (u : UnitNo) : PuOrder → Bool
  | .eqd v _ => v == u
  | _ => false

/-! ### The district (R156) -/

/-- The loads of the present entries, summed and saturating (R156). -/
def loadSum (loads : Vector LoadEntry 16) : Nat :=
  min 4294967295 ((loads.toList.map (fun e => if e.present then e.load else 0)).sum)

/-- F from the present loads and the budget K (R156). -/
def factorOf (k sum : Nat) : Nat := if sum = 0 then 256 else min 256 (max 32 (256 * k / sum))

end Sys2Proof.Machine
end

