-- ==== Sys2Proof/Machine/Ops.lean ====
section
/-!
DEFINITION. The operations that the meanings share: reading and writing records, the downstream order queue (R8 to R12), the
alarm records (R186), the outbox with its losses and the pacing that follows them (R145, R147, R175, R176), and the queuing of
claim notices (R51).
-/
namespace Sys2Proof.Machine

/-! ### Tables -/

/-- Every entry of a table through `f`. -/
def vmap {α β : Type} {n : Nat} (f : α → β) (v : Vector α n) : Vector β n := ⟨⟨v.toList.map f⟩, by simp⟩

/-- The unit numbers in order. -/
def allUnits : List UnitNo := List.finRange 64

/-- Unit record `u`. -/
def getU (u : UnitNo) (s : State) : UnitRecord := s.ut.get u

/-- Unit record `u` becomes `r`. -/
def setU (u : UnitNo) (r : UnitRecord) (s : State) : State := { s with ut := s.ut.set u r }

/-- Unit record `u` goes through `f`. -/
def modU (u : UnitNo) (f : UnitRecord → UnitRecord) (s : State) : State := setU u (f (getU u s)) s

/-- Every unit record goes through `f`. -/
def mapU (f : UnitRecord → UnitRecord) (s : State) : State := { s with ut := vmap f s.ut }

/-- The EC's state beside record `u`. -/
def getE (u : UnitNo) (s : State) : EcUnit := s.ec.units.get u

/-- The EC's state beside record `u` goes through `f`. -/
def modE (u : UnitNo) (f : EcUnit → EcUnit) (s : State) : State :=
  { s with ec := { s.ec with units := s.ec.units.set u (f (getE u s)) } }

/-- The EC's state beside every record goes through `f`. -/
def mapE (f : EcUnit → EcUnit) (s : State) : State := { s with ec := { s.ec with units := vmap f s.ec.units } }

/-- The UCB's account of unit `u`. -/
def getA (u : UnitNo) (s : State) : Account := s.ucb.accounts.get u

/-- The UCB's account of unit `u` goes through `f`. -/
def modA (u : UnitNo) (f : Account → Account) (s : State) : State :=
  { s with ucb := { s.ucb with accounts := s.ucb.accounts.set u (f (getA u s)) } }

/-- The place of a kind's record in the Alarm Table. -/
def alarmIndex (k : AlarmKind) : Fin 20 := ⟨alarmNumber k - 1, by cases k <;> decide⟩

/-- The alarm record of kind `k`. -/
def getK (k : AlarmKind) (s : State) : AlarmRecord := s.alarms.records.get (alarmIndex k)

/-- The alarm record of kind `k` goes through `f`. -/
def modK (k : AlarmKind) (f : AlarmRecord → AlarmRecord) (s : State) : State :=
  { s with alarms := { s.alarms with records := s.alarms.records.set (alarmIndex k) (f (getK k s)) } }

/-- The isolation machine goes through `f`. -/
def modIso (f : Isolation → Isolation) (s : State) : State := { s with lm := { s.lm with iso := f s.lm.iso } }

/-- The non-FREE record that holds serial `x`, if there is one (R24). -/
def findUnit (x : Serial) (s : State) : Option UnitNo := allUnits.find? (fun u => holds x (getU u s))

/-- The permit for serial `x` (R40). -/
def findPermit (x : Serial) (s : State) : Option Permit := s.ec.permits.find? (fun p => p.serial == x)

/-- Serial `x` is on the barred list (R162). -/
def isBarred (x : Serial) (s : State) : Bool := s.dv.barred.any (fun b => b.serial == x)

/-- A waiting re-offer becomes due at the round-marker event. -/
def Reoffer.tick : Reoffer → Reoffer
  | .idle => .idle
  | .waiting => .due
  | .due => .due
  | .dueAgain => .due

/-- A loss sets the re-offer for the next round-marker event, and leaves an offer that is due already as due (R188). -/
def Reoffer.lose : Reoffer → Reoffer
  | .idle => .waiting
  | .waiting => .waiting
  | .due => .dueAgain
  | .dueAgain => .dueAgain

/-- The offer is due. -/
def Reoffer.isDue : Reoffer → Bool
  | .idle => false
  | .waiting => false
  | .due => true
  | .dueAgain => true

/-- What is left once the offer that was due has been made: a loss since then still waits (R188). -/
def Reoffer.made : Reoffer → Reoffer
  | .idle => .idle
  | .waiting => .waiting
  | .due => .idle
  | .dueAgain => .waiting

/-! ### Downstream order queue (R8 to R12) -/

/-- The order joins the end of its group (R9). -/
def enqueue (x : QueuedOrder) (q : List QueuedOrder) : List QueuedOrder :=
  q.filter (fun y => orderGroup y.order ≤ orderGroup x.order) ++
    x :: q.filter (fun y => orderGroup x.order < orderGroup y.order)

/-- The queue has room for `k` more orders (R9, R10). -/
def queueHasRoom (k : Nat) (s : State) : Bool := decide (s.tli.queue.length + k ≤ 64)

/-- The order joins the queue, unless the queue holds 64 orders and refuses it (R9). -/
def offerOrder (p : Producer) (o : PuOrder) (s : State) : State :=
  if queueHasRoom 1 s then { s with tli := { s.tli with queue := enqueue ⟨o, p, .plain⟩ s.tli.queue } } else s

/-- The orders of one offer, each with its mark: the last of them carries `mark` (R10, R119). -/
def markedOffer (mark : OfferMark) : List PuOrder → List QueuedOrder
  | [] => []
  | [o] => [⟨o, .lm, mark⟩]
  | o :: rest => ⟨o, .lm, .plain⟩ :: markedOffer mark rest

/-- All the orders of an offer join, in their order (R10). -/
def enqueueAll (l : List QueuedOrder) (s : State) : State :=
  { s with tli := { s.tli with queue := l.foldl (fun q x => enqueue x q) s.tli.queue } }

/-- The queued order is one that producer `p` offered and `which` names (R12). -/
def withdrawn (p : Producer) (which : PuOrder → Bool) (x : QueuedOrder) : Bool := x.producer == p && which x.order

/-- A producer withdraws its queued orders that `which` names, and is told how many were removed (R12). -/
def withdrawOrders (p : Producer) (which : PuOrder → Bool) (s : State) : State × Nat :=
  ({ s with tli := { s.tli with queue := s.tli.queue.filter (fun x => !withdrawn p which x) } },
   (s.tli.queue.filter (withdrawn p which)).length)

/-- An EQD for the unit stands in the queue (R60, R66). -/
def eqdQueued (u : UnitNo) (s : State) : Bool := s.tli.queue.any (fun x => isEqdFor u x.order)

/-- An ASSIGN for the unit stands in the queue (R60). -/
def assignQueued (u : UnitNo) (s : State) : Bool := s.tli.queue.any (fun x => isAssignFor u x.order)

/-- The EC offers the record's ASSIGN, and a refused one waits to be offered again (R59). -/
def offerAssign (u : UnitNo) (s : State) : State :=
  match (getU u s).serial, (getU u s).provEqd with
  | some x, some q =>
    if queueHasRoom 1 s then modE u (fun e => { e with assignWait := .idle }) (offerOrder .ec (.assign u x q) s)
    else modE u (fun e => { e with assignWait := .waiting }) s
  | _, _ => s

/-- A DROP_UNIT is offered at freeing, drop pending is set, and a refused one waits to be offered again (R30). -/
def offerDrop (p : Producer) (u : UnitNo) (s : State) : State :=
  if queueHasRoom 1 s then
    modU u (fun r => { r with dropPending := true, dropWait := .idle }) (offerOrder p (.dropUnit u) s)
  else modU u (fun r => { r with dropPending := true, dropWait := .waiting }) s

/-! ### Alarm records (R186) -/

/-- What an occurrence with subject `x` does to a record (R186). -/
def latchRecord (x : Option Serial) (a : AlarmRecord) : AlarmRecord :=
  let a1 := { a with count := satAdd 65535 a.count 1 }
  if !a.raised then { a1 with raised := true, subject := x }
  else match x with
    | none => a1
    | some v =>
      if a.subject = some v ∨ v ∈ a.waiting ∨ 4 ≤ a.waiting.length then a1
      else { a1 with waiting := a.waiting ++ [v] }

/-- The occurrence reaches the record, without its notice. -/
def latch (k : AlarmKind) (x : Option Serial) (s : State) : State := modK k (latchRecord x) s

/-! ### The outbox (R175, R176) -/

/-- A notice joins at the end of its class. -/
def insertNotice (n : Notice) (box : List Notice) : List Notice :=
  box.filter (fun m => m.body.cls ≤ n.body.cls) ++ n :: box.filter (fun m => n.body.cls < m.body.cls)

/-- The notice is a load notice. -/
def NoticeBody.isLoad : NoticeBody → Bool
  | .load _ => true
  | _ => false

/-- How many usage notices the outbox holds. -/
def usageHeld (box : List Notice) : Nat := (box.filter (fun m => m.body.cls == 6)).length

/-- The outbox as the offer of `b` finds it: a queued load notice gives way to a new one (R175). -/
def outboxFor (b : NoticeBody) (s : State) : List Notice :=
  if b.isLoad then s.sbp.outbox.filter (fun m => !m.body.isLoad) else s.sbp.outbox

/-- The notice that a full outbox gives up for one of class `c`: the newest of the highest class held, if that class is
higher than `c` (R176). -/
def victimFor (c : Nat) (box : List Notice) : Option Notice :=
  match box.getLast? with
  | some m => if c < m.body.cls then some m else none
  | none => none

/-- The outbox refuses the notice (R176). -/
def outboxRefuses (b : NoticeBody) (s : State) : Bool :=
  (b.cls == 6 && decide (4 ≤ usageHeld (outboxFor b s)))
    || (decide (32 ≤ (outboxFor b s).length) && (victimFor b.cls (outboxFor b s)).isNone)

/-- What a lost notice leaves with its producer (the table of R176): the alarm's and the presence notice's re-offer (R188,
R191), the lost claim (R51) or bar (R163). An answer, a held claim and a load notice leave nothing. -/
def noteLost (n : Notice) (s : State) : State :=
  match n.body with
  | .alarm k _ x => if (getK k s).raised && (getK k s).subject == x then modK k (fun a => { a with reoffer := a.reoffer.lose }) s else s
  | .answer _ => s
  | .claim x l k u =>
    if k = .held then s else { s with ec := { s.ec with lostClaims := s.ec.lostClaims ++ [⟨x, l, k, u, n.ref, false⟩] } }
  | .bar x r => { s with dv := { s.dv with lostBars := s.dv.lostBars ++ [⟨x, r, false⟩] } }
  | .load _ => s
  | .usage _ _ => s
  | .presence _ _ => { s with sc := { s.sc with presence := s.sc.presence.lose } }

/-- A snapshot that stands with the shelf bus as `a` says stands as `b` says from now on (R140). -/
def Snapshot.move (a b : NoticeState) (p : Snapshot) : Snapshot := if p.notice = a then { p with notice := b } else p

/-- A usage notice that was out in the outbox is evicted: the count out falls by one, and the snapshot it stood for is
unqueued again (R147). A notice whose body was fixed at a direct freeing stands for none (R149). -/
def usageEvicted (n : Notice) (s : State) : State :=
  match n.body with
  | .usage u none =>
    modA u (fun a => { a with snapshot := a.snapshot.map (Snapshot.move .queued .unqueued) })
      { s with ucb := { s.ucb with out := s.ucb.out - 1 } }
  | .usage _ (some _) => { s with ucb := { s.ucb with out := s.ucb.out - 1 } }
  | _ => s

/-- A loss occurs as OUTBOX_OVERFLOW, without its notice (R176). -/
def overflow (s : State) : State := latch .outboxOverflow none s

/-- One offer to the outbox (R176): the notice takes the next number; it joins, or evicts, or is refused, and each loss is told
to its producer and occurs as OUTBOX_OVERFLOW. A refused usage notice was never out (R147). -/
def offerRaw (b : NoticeBody) (s : State) : State :=
  let n : Notice := ⟨s.sbp.nextRef, b⟩
  let box := outboxFor b s
  let s1 := { s with sbp := { s.sbp with outbox := box, nextRef := s.sbp.nextRef + 1 } }
  if outboxRefuses b s then overflow (noteLost n s1)
  else if box.length < 32 then { s1 with sbp := { s1.sbp with outbox := insertNotice n box } }
  else match victimFor b.cls box with
    | some v => overflow (usageEvicted v (noteLost v { s1 with sbp := { s1.sbp with outbox := insertNotice n box.dropLast } }))
    | none => s1

/-! ### Pacing (R145) -/

/-- The records in ring order from the one after `p` round to `p` (R145). -/
def ringAfter (p : UnitNo) : List UnitNo := allUnits.map (fun i => i + p + 1)

/-- The record's snapshot is present and unqueued (R145). -/
def unqueued (a : Account) : Bool :=
  match a.snapshot with
  | some p => p.notice == .unqueued
  | none => false

/-- The first record in ring order whose snapshot is present and unqueued (R145). -/
def nextSnapshot (s : State) : Option UnitNo := (ringAfter s.ucb.pacePtr).find? (fun u => unqueued (getA u s))

/-- The usage notice of unit `u` has been taken by the outbox (R145). -/
def usageTaken (u : UnitNo) (s : State) : State :=
  modA u (fun a => { a with snapshot := a.snapshot.map (Snapshot.move .unqueued .queued) })
    { s with ucb := { s.ucb with out := s.ucb.out + 1, pacePtr := u } }

/-- A run of pacing, `fuel` offers at most; four are enough, since at most four notices are out (R145). -/
def paceLoop : Nat → State → State
  | 0, s => s
  | fuel + 1, s =>
    if s.ucb.out < 4 then
      match nextSnapshot s with
      | none => s
      | some u =>
        if outboxRefuses (.usage u none) s then offerRaw (.usage u none) s
        else paceLoop fuel (usageTaken u (offerRaw (.usage u none) s))
    else s

/-- One offer, and the run of pacing that follows when it evicted a usage notice (R145, R147). -/
def offerPaced (b : NoticeBody) (s : State) : State :=
  let s1 := offerRaw b s
  if s1.ucb.out < s.ucb.out then paceLoop 4 s1 else s1

/-- OUTBOX_OVERFLOW was not raised in `before` and is raised in `s`: its alarm notice is offered unless it is masked (R186,
R187). The count a first raise carries is 1 (R188). -/
def overflowNotice (before s : State) : State :=
  if !(getK .outboxOverflow before).raised && (getK .outboxOverflow s).raised && !masked .outboxOverflow s then
    offerPaced (.alarm .outboxOverflow 1 none) s
  else s

/-- A notice that is no usage notice is offered, with all that its losses lead to (R176). -/
def offerNotice (b : NoticeBody) (s : State) : State := overflowNotice s (offerPaced b s)

/-- Pacing runs (R145). Where a usage offer of the run evicts a presence notice and so first raises OUTBOX_OVERFLOW, R145 and R186
give no order between that alarm notice and the run's other offers: that the run ends first is the model's choice (log
entry 14). -/
def pace (s : State) : State := overflowNotice s (paceLoop 4 s)

/-! ### Alarms (R186, R188) -/

/-- An occurrence of kind `k` with subject `x`: the record latches it, and a first raise offers the notice unless the class is
masked (R186). -/
def occur (k : AlarmKind) (x : Option Serial) (s : State) : State :=
  if !(getK k s).raised && !masked k s then offerNotice (.alarm k 1 x) (latch k x s) else latch k x s

/-! ### Claim notices (R51) -/

/-- A held claim for the record is offered, with its level average. If the outbox takes it, the claim refresh of an ACTIVE or
LOST record starts again at 4,000; if it refuses it, the countdown is left as it stands (R51, R161). In RANGING with returning
set (R55) the countdown stays 0: R161 starts it "whenever" such a claim is queued, R28 holds it at 0 outside ACTIVE and LOST, and
the model takes R28 (log entry 11). -/
def queueHeld (u : UnitNo) (s : State) : State :=
  match (getU u s).serial with
  | none => s
  | some x =>
    let b := NoticeBody.claim x (getU u s).level .held u
    if outboxRefuses b s then offerNotice b s
    else modU u (fun r => if serves r then { r with claimRefresh := 4000 } else r) (offerNotice b s)

/-- The record's claiming notice is offered, and the record waits for the report on this one (R51, R52). -/
def queueClaiming (u : UnitNo) (s : State) : State :=
  match (getU u s).serial with
  | none => s
  | some x =>
    offerNotice (.claim x (getU u s).level .claiming u) (modE u (fun e => { e with claimRef := some s.sbp.nextRef }) s)

/-- A released notice is offered for a serial at its freeing (R36, R37, R51). -/
def queueReleased (u : UnitNo) (x : Serial) (level : Nat) (s : State) : State := offerNotice (.claim x level .released u) s

end Sys2Proof.Machine
end

