-- ==== Sys2Proof/Machine/Isolation.lean ====
section
/-!
DEFINITION. The isolation machine's steps, closing offers and the two verdicts that need no condemnation (R119 to R129), and
the removal of a record from the search (R130).
-/
namespace Sys2Proof.Machine

/-- The first ceil(|C| / 2) units of C (R123). -/
def firstHalf (l : List UnitNo) : List UnitNo := l.take ((l.length + 1) / 2)

/-- The orders of a step, built from the lists as they stand (R119, R121, R123). -/
def stepOrders (k : StepKind) (m : Isolation) : List PuOrder :=
  match k with
  | .confirm => [.hushAll]
  | .speak => m.speak.map .speakUnit
  | .hush => m.hush.map .hushUnit

/-- The records then in ACTIVE, LOST or RANGING, in unit-number order (R121). -/
def onTreeUnits (s : State) : List UnitNo := allUnits.filter (fun u => onTree (getU u s))

/-- What the taking of a step does at once (R119, R121): the CONFIRM step hushes every record on the tree and keeps their
numbers; a HUSH_UNIT step sets the flags of H. -/
def stepTaken (k : StepKind) (s : State) : State :=
  match k with
  | .confirm =>
    modIso (fun m => { m with hushedSet := onTreeUnits s }) (mapU (fun r => if onTree r then { r with hush := true } else r) s)
  | .hush => s.lm.iso.hush.foldl (fun t u => modU u (fun r => { r with hush := true }) t) s
  | .speak => s

/-- The step is offered (R10, R119): it is taken whole, or refused whole and waits for the next frame. A step left without
orders is not offered and counts as carried in the next frame. A SPEAK_UNIT step clears the flags of L as L stands at the taking:
that a unit which a removal takes out of L before the clearing has its flag cleared too is the model's choice (R123 against R130;
log entry 26). -/
def offerStep (k : StepKind) (s : State) : State :=
  let orders := stepOrders k s.lm.iso
  if orders = [] then modIso (fun m => { m with step := .emptied, stepKind := k, stepClears := [], stepDue := false }) s
  else if queueHasRoom orders.length s then
    modIso (fun m => { m with step := .toCarry, stepKind := k, stepDue := false,
                              stepClears := if k = .speak then m.speak else [] })
      (stepTaken k (enqueueAll (markedOffer .stepEnd orders) s))
  else modIso (fun m => { m with step := .waiting, stepKind := k, stepDue := false }) s

/-- The step's last order was carried in round `k`: the flags it clears are put down for the next round-marker event, and the
hush settle begins (R119, R120). A step that a removal has overtaken leaves its place to the new one (R130). -/
def stepCarried (k : Nat) (s : State) : State :=
  if s.lm.iso.step = .toCarry ∨ s.lm.iso.step = .emptied then
    modIso (fun m =>
      { m with step := if m.restep then .idle else .settling, carriage := k, samples := 0, litSamples := 0,
               clearings := if m.stepClears = [] then m.clearings else m.clearings ++ [⟨.units m.stepClears, false⟩],
               stepClears := [] }) s
  else s

/-- The new SPEAK_UNIT step that a removal called for is offered once the step before it has been carried (R130). -/
def restepAfter (s : State) : State :=
  if s.lm.iso.restep && s.lm.iso.step == .idle then offerStep .speak (modIso (fun m => { m with restep := false }) s) else s

/-- Closing offers are made one after another, each once the one before it has been taken; the first that is refused waits,
with those behind it (R119). -/
def offerClosings : List ClosingOffer → State → State
  | [], s => modIso (fun m => { m with closing := [], stepDue := false }) s
  | o :: rest, s =>
    if queueHasRoom o.orders.length s then
      offerClosings rest
        (modIso (fun m => { m with closingOut := m.closingOut + 1 }) (enqueueAll (markedOffer (.closingEnd o.clears) o.orders) s))
    else modIso (fun m => { m with closing := o :: rest, stepDue := false }) s

/-- Closing offers join those that wait; counting from stands at held until the last is carried (R118). That they are made at
once, even while a step that has been taken is still queued, is the model's reading of R119 (log entry 18). -/
def addClosings (l : List ClosingOffer) (s : State) : State :=
  if l = [] then s
  else if s.lm.iso.closing = [] then offerClosings l (modIso (fun m => { m with countFrom := .held }) s)
  else modIso (fun m => { m with countFrom := .held, closing := m.closing ++ l }) s

/-- A closing offer was carried in round `k`: the flags it clears are put down, and the last one sets counting from (R118,
R119). -/
def closingCarried (k : Nat) (clears : ClearSet) (s : State) : State :=
  if s.lm.iso.closingOut = 0 then s
  else modIso (fun m =>
    { m with closingOut := m.closingOut - 1,
             clearings := m.clearings ++ [⟨clears, false⟩],
             countFrom := if m.closingOut = 1 ∧ m.closing = [] then .fromRound (wrap16 k) else m.countFrom }) s

/-- The hush flags of a clear set are cleared (R119). -/
def clearHush (c : ClearSet) (s : State) : State :=
  match c with
  | .nothing => s
  | .all => mapU (fun r => { r with hush := false }) s
  | .units l => l.foldl (fun t u => modU u (fun r => { r with hush := false }) t) s

/-- The machine with its search at an end: no lists, no step, no test, lit run 0. That C, L, H and the hushed set are emptied at
a verdict is the model's choice: R126 to R128 do not say what they hold until R121 fills them again (log entry 18). -/
def searchEnded (m : Isolation) : Isolation :=
  { m with litRun := 0, cand := [], speak := [], hush := [], hushedSet := [], step := .idle, stepClears := [], restep := false,
           samples := 0, litSamples := 0 }

/-- The verdict UNLOCATED (R128). -/
def verdictUnlocated (s : State) : State :=
  addClosings [⟨[.speakAll], .all⟩]
    (occur .rogueUnlocated none
      (modIso (fun m => { searchEnded m with phase := .holdoff, cause := .unlocated, holdoff := 240000 }) s))

/-- The SPEAK_UNIT offers of an UNENROLLED verdict, of at most 32 orders each (R127). -/
def speakOffers (l : List UnitNo) : List ClosingOffer :=
  [l.take 32, l.drop 32].filterMap (fun c => if c = [] then none else some ⟨c.map .speakUnit, .units c⟩)

/-- The verdict UNENROLLED (R127). -/
def verdictUnenrolled (s : State) : State :=
  let hushed := allUnits.filter (fun u => onTree (getU u s) && (getU u s).hush)
  addClosings (speakOffers hushed)
    (mapU (fun r => if onTree r then r else { r with hush := false })
      (occur .rogueUnenrolled none
        (modIso (fun m => { searchEnded m with phase := .holdoff, cause := .unenrolled, holdoff := 240000 }) s)))

/-- The unit leaves the hushed set, C, L and H (R130). -/
def dropUnit (u : UnitNo) (m : Isolation) : Isolation :=
  { m with hushedSet := m.hushedSet.filter (· ≠ u), cand := m.cand.filter (· ≠ u), speak := m.speak.filter (· ≠ u),
           hush := m.hush.filter (· ≠ u) }

/-- What the removal of a record means for the search (R130). -/
def isoRemove (u : UnitNo) (s : State) : State :=
  match s.lm.iso.phase with
  | .watch => s
  | .holdoff => s
  | .confirm => modIso (dropUnit u) s
  | .bisect =>
    let s1 := modIso (dropUnit u) s
    if s1.lm.iso.cand = [] then verdictUnlocated s1
    else if s1.lm.iso.speak ≠ [] ∨ s.lm.iso.speak = [] then s1
    else
      let s2 := modIso (fun m => { m with speak := firstHalf m.cand, hush := [], samples := 0, litSamples := 0 }) s1
      if s2.lm.iso.step = .toCarry then modIso (fun m => { m with restep := true }) s2 else offerStep .speak s2

end Sys2Proof.Machine
end

