-- ==== Sys2Proof/Machine/Usage.lean ====
section
/-!
DEFINITION. The Usage Counter Bank's operations (chapter 7): attribution and saturation, the final snapshot, direct freeing,
the take, and what the reports of a usage notice do.
-/
namespace Sys2Proof.Machine

/-! ### Counters (R135, R139) -/

/-- The top of a byte counter, 2^48 − 1 (R135). -/
def counterTop : Nat := 281474976710655

/-- An addition to a counter, saturating (R139). -/
def addCount (n k : Nat) : Nat := satAdd counterTop n k

/-- The addition would carry the counter beyond its top (R139). -/
def overCount (n k : Nat) : Bool := decide (counterTop < n + k)

/-- Two tables entry by entry. -/
def vzip {α β γ : Type} {n : Nat} (f : α → β → γ) (v : Vector α n) (w : Vector β n) : Vector γ n :=
  ⟨⟨List.zipWith f v.toList w.toList⟩, by simp⟩

/-- An upstream attribution: `d` bytes in band `b`, of which `x` are excess and `y` busy excess (R137, R139). -/
def attributeUp (b : Band) (d x y : Nat) (c : CounterSet) : CounterSet :=
  { c with
    up := c.up.set b (addCount (c.up.get b) d)
    excess := addCount c.excess x
    busy := addCount c.busy y
    saturated := c.saturated || overCount (c.up.get b) d || overCount c.excess x || overCount c.busy y }

/-- A downstream attribution: `d` bytes in band `b` (R138, R139). -/
def attributeDown (b : Band) (d : Nat) (c : CounterSet) : CounterSet :=
  { c with down := c.down.set b (addCount (c.down.get b) d), saturated := c.saturated || overCount (c.down.get b) d }

/-- Two sets added counter by counter, saturating; the flag is set if either was, or if any addition saturated (R148). -/
def mergeSets (a c : CounterSet) : CounterSet :=
  { up := vzip addCount a.up c.up
    down := vzip addCount a.down c.down
    excess := addCount a.excess c.excess
    busy := addCount a.busy c.busy
    saturated := a.saturated || c.saturated || (vzip overCount a.up c.up).toList.any id
      || (vzip overCount a.down c.down).toList.any id || overCount a.excess c.excess || overCount a.busy c.busy }

/-- COUNTER_SATURATED occurs for the record when a set's flag went from clear to set (R139). -/
def saturation (u : UnitNo) (before after : Bool) (s : State) : State :=
  if after && !before then occur .counterSaturated (getU u s).serial s else s

/-- The live set of unit `u` goes through an attribution (R137, R138, R139). -/
def countBytes (u : UnitNo) (f : CounterSet → CounterSet) (s : State) : State :=
  saturation u (getA u s).live.saturated (f (getA u s).live).saturated (modA u (fun a => { a with live := f a.live }) s)

/-- The UCB's share of a VALID burst: `d` data bytes on a grant of committed payload `pc`, marked busy or not (R137). -/
def attributeBurst (u : UnitNo) (d pc : Nat) (busy : Bool) (s : State) : State :=
  if d = 0 then s
  else countBytes u (attributeUp s.ucb.band d (d - min d (4 * pc)) (if busy then d - min d (4 * pc) else 0)) s

/-! ### Final snapshots (R148) -/

/-- The live set moves to a new final snapshot, which takes the next take number (R148, first row). -/
def makeFinal (u : UnitNo) (s : State) : State :=
  modA u (fun a =>
    { live := CounterSet.zero
      takeNo := wrap16 a.takeNo
      snapshot := some { counters := a.live, takeNo := wrap16 a.takeNo, isFinal := true, disputed := (getU u s).disputed,
                         notice := .unqueued, closePending := false } }) s

/-- The live set is added into the snapshot `p`, which becomes final and stands with the shelf bus as `st` says (R148, second
row). -/
def mergeFinal (u : UnitNo) (p : Snapshot) (st : NoticeState) (s : State) : State :=
  let c := mergeSets p.counters (getA u s).live
  saturation u p.counters.saturated c.saturated
    (modA u (fun a =>
      { a with
        live := CounterSet.zero
        snapshot := some { p with counters := c, isFinal := true, disputed := (getU u s).disputed, notice := st,
                                  closePending := false } }) s)

/-- The unit's billing closes, by the state of its snapshot, and pacing runs (R148). -/
def closeBilling (u : UnitNo) (s : State) : State :=
  match (getA u s).snapshot with
  | none => pace (makeFinal u s)
  | some p =>
    if p.notice = .onLine then modA u (fun a => { a with snapshot := some { p with closePending := true } }) s
    else pace (mergeFinal u p p.notice s)

/-! ### Bodies of usage notices (R144, R149) -/

/-- The body that the unit's snapshot gives a usage notice (R144). -/
def usageBody (u : UnitNo) (s : State) : Option UsageBody :=
  match (getU u s).serial, (getA u s).snapshot with
  | some x, some p => some { unit := u, serial := x, takeNo := p.takeNo, isFinal := p.isFinal, disputed := p.disputed,
                             counters := p.counters }
  | _, _ => none

/-- A usage notice that stands for the unit's snapshot gets its body from it (R144). -/
def fixBody (u : UnitNo) (s : State) (b : NoticeBody) : NoticeBody :=
  match b with
  | .usage v none => if v = u then .usage v (usageBody u s) else b
  | _ => b

/-- At a direct freeing the live set is zeroed, the take number is 0, a queued notice has its body fixed from the snapshot, and
the snapshot is absent (R149). -/
def directFreeBilling (u : UnitNo) (s : State) : State :=
  modA u (fun _ => Account.blank)
    { s with sbp := { s.sbp with outbox := s.sbp.outbox.map (fun n => { n with body := fixBody u s n.body }) } }

/-! ### Takes (R141) -/

/-- The record is visited by a take: in ACTIVE, LOST or RANGING (R141). -/
def takeVisits (r : UnitRecord) : Bool := onTree r

/-- The record of unit `u` would be taken now: visited, with its snapshot absent (R141). -/
def takesNow (s : State) (u : UnitNo) : Bool := takeVisits (getU u s) && (getA u s).snapshot.isNone

/-- The record of unit `u` would be skipped now: visited with a snapshot present, or RETIRING (R142). -/
def skipsNow (s : State) (u : UnitNo) : Bool :=
  (takeVisits (getU u s) && (getA u s).snapshot.isSome) || (getU u s).state == .retiring

/-- The live set is copied to a new snapshot and zeroed, and the take number rises by one (R141). -/
def takeSnapshot (disputed : Bool) (a : Account) : Account :=
  { live := CounterSet.zero
    takeNo := wrap16 a.takeNo
    snapshot := some { counters := a.live, takeNo := wrap16 a.takeNo, isFinal := false, disputed := disputed,
                       notice := .unqueued, closePending := false } }

/-- One record of a take (R141). -/
def takeUnit (u : UnitNo) (s : State) : State :=
  if takesNow s u then modA u (takeSnapshot (getU u s).disputed) s else s

/-- The visit of a take, in unit-number order, and the pacing after it (R141). -/
def takeAll (s : State) : State := pace (allUnits.foldl (fun t u => takeUnit u t) s)

/-! ### Reports on usage notices (R146, R147) -/

/-- The record whose snapshot a usage notice of body `b` stands for: the snapshot is on the line, with the notice's serial and
take number (R146). -/
def usageMatch (b : UsageBody) (s : State) : Option Snapshot :=
  match (getA b.unit s).snapshot with
  | some p =>
    if p.notice = .onLine ∧ (getU b.unit s).serial = some b.serial ∧ p.takeNo = b.takeNo then some p else none
  | none => none

/-- The count of usage notices out falls by one (R146, R147). -/
def oneOutLess (s : State) : State := { s with ucb := { s.ucb with out := s.ucb.out - 1 } }

/-- A usage notice on the line is lost: the snapshot stays and is unqueued again, a close pending is settled by the merge, and
pacing runs (R147, R148). -/
def usageAborted (b : UsageBody) (s : State) : State :=
  let s1 := oneOutLess s
  match usageMatch b s1 with
  | none => pace s1
  | some p =>
    if p.closePending then pace (mergeFinal b.unit p .unqueued s1)
    else pace (modA b.unit (fun a => { a with snapshot := some { p with notice := .unqueued } }) s1)

end Sys2Proof.Machine
end

