-- ==== Sys2Proof/Machine/UnitTable.lean ====
section
/-!
DEFINITION. The Unit Table's shared operations (chapter 2): entry to RANGING (R58), to RETIRING (R35) and to LOST (R31), and
the two freeings (R36, R37).
-/
namespace Sys2Proof.Machine

/-- The record leaves the ranging queue, its attempt pending is cleared, and the EC stops offering its ASSIGN (R57, R59). -/
def leaveRangingQueue (u : UnitNo) (s : State) : State :=
  modE u (fun e => { e with attemptPending := false, assignWait := .idle })
    { s with ec := { s.ec with rangingQueue := s.ec.rangingQueue.filter (· ≠ u) } }

/-- Entry to RANGING (R58): the record joins the tail of the ranging queue with attempt pending clear. The tail events and the
tail span are zeroed (R115), and the countdowns of the states it leaves are 0 (R28). -/
def enterRanging (u : UnitNo) (returning : Bool) (prov : Option Nat) (s : State) : State :=
  modU u (fun r =>
      { r with state := .ranging, returning := returning, provEqd := prov, attempts := 0, corrHold := 0, claimRefresh := 0,
               lostHold := 0, claimSettle := 0, settleStarted := false, tailEvents := 0, tailSpan := 0 })
    (modE u (fun e => { e with attemptPending := false, measurement := none })
      { s with ec := { s.ec with rangingQueue := s.ec.rangingQueue.filter (· ≠ u) ++ [u] } })

/-- A misaligned streak of 2 or a tail re-range: RANGING with returning set and the current EqD as provisional; no ASSIGN
(R58, R105, R116). -/
def reRange (u : UnitNo) (s : State) : State := enterRanging u true (getU u s).eqd s

/-- Entry to RETIRING (R35): the ranging queue and the queued ASSIGN and EQD let the record go, its countdowns stop, the search
drops it (R130), and its billing closes (R148). R35 gives these no order: that the search, with a verdict that the removal may
bring, comes before the billing and its pacing is the model's choice (log entry 14). -/
def retire (u : UnitNo) (s : State) : State :=
  let s1 := modU u (fun r =>
      { r with state := .retiring, provEqd := none, lostHold := 0, claimRefresh := 0, poll := 0 }) s
  let s2 := (withdrawOrders .ec (fun o => isAssignFor u o || isEqdFor u o) (leaveRangingQueue u s1)).1
  closeBilling u (isoRemove u s2)

/-- A freed record: every field as at reset but the cooling (R37). -/
def freedRecord (cooling : Nat) : UnitRecord := { UnitRecord.blank with cooling := cooling }

/-- What the EC holds beside a freed record: no measurement, nothing pending, no claiming notice awaited (R50, R57, R59). -/
def freedEc (e : EcUnit) : EcUnit :=
  { e with measurement := none, attemptPending := false, assignWait := .idle, claimRef := none }

/-- A record that was never ACTIVE is freed (R37, R149). From RANGING its queued ASSIGN is withdrawn, a DROP_UNIT is offered
and the search drops it (R130); from CLAIMING no order is offered. That the DROP_UNIT is offered before the orders that the search
may then offer is the model's choice: R9 takes them in either order (log entry 14). So is that a ROGUE_UNLOCATED notice, which the
search may raise, is offered before the released claim: no rule orders R37's claim against R130 (log entry 14). -/
def directFree (u : UnitNo) (s : State) : State :=
  let r := getU u s
  let s1 := directFreeBilling u (modE u freedEc (leaveRangingQueue u s))
  let s2 := if r.state = .ranging then
      isoRemove u (offerDrop .ec u (setU u (freedRecord 0) (withdrawOrders .ec (isAssignFor u) s1).1))
    else setU u (freedRecord 0) s1
  match r.serial with
  | some x => queueReleased u x r.level s2
  | none => s2

/-- A RETIRING record whose final snapshot has been sent is freed (R36): a DROP_UNIT unless bar sent is set, a released claim,
cooling 4,000, and its account as at allocation (R146). -/
def freeRetired (u : UnitNo) (s : State) : State :=
  let r := getU u s
  let s1 := setU u (freedRecord 4000) (modA u (fun _ => Account.blank) (modE u freedEc s))
  let s2 := if r.barSent then s1 else offerDrop .ut u s1
  match r.serial with
  | some x => queueReleased u x r.level s2
  | none => s2

/-- Entry to LOST from ACTIVE (R31). -/
def enterLost (u : UnitNo) (s : State) : State :=
  occur .unitLost (getU u s).serial (modU u (fun r => { r with state := .lost, lostHold := 240000, poll := 64 }) s)

/-- A record leaves service or, never having served, is freed at once (R35, R37). -/
def endService (u : UnitNo) (s : State) : State :=
  if inService (getU u s) then retire u s else if neverServed (getU u s) then directFree u s else s

/-! ### The Unit Table's commands -/

/-- What the expiry of a LOST hold does (R34). -/
def lostHoldStep (u : UnitNo) (s : State) : State :=
  if lostHoldExpired (getU u s) then retire u (occur .unitGone (getU u s).serial s) else s

/-- A refused DROP_UNIT is offered again, by the UT, while drop pending stands (R30). -/
def dropUnitStep (u : UnitNo) (s : State) : State :=
  if (getU u s).dropWait.isDue then offerDrop .ut u s else s

/-- The cooling of a FREE record has come to 0 (R30): the round-marker event that lowered it left the record allocatable
(`tickRecord`, `allocatable`), and nothing is left to write (log entry 8). -/
def coolingStep (_u : UnitNo) (s : State) : State := s

/-- REVOKE (R38): what the order does, and its outcome. -/
def revokeOrder (x : Serial) (s : State) : State × AnswerOutcome :=
  match findUnit x s with
  | none => (s, .unknownSerial)
  | some u =>
    match (getU u s).state with
    | .free => (s, .unknownSerial)
    | .claiming => (s, .wrongState)
    | .retiring => (s, .wrongState)
    | .ranging => (endService u s, .done)
    | .active => (endService u s, .done)
    | .lost => (endService u s, .done)

/-- The permit for the serial takes the codes and keeps its place (R39, R40). -/
def setPermit (x : Serial) (p : Profile) (s : State) : State :=
  { s with ec := { s.ec with permits := s.ec.permits.map (fun q => if q.serial = x then { q with profile := p } else q) } }

/-- PROFILE (R39): what the order does, and its outcome. -/
def profileOrder (x : Serial) (c : ProfileCodes) (s : State) : State × AnswerOutcome :=
  if !codesOk c then (s, .badField)
  else match findUnit x s with
    | some u =>
      if (getU u s).state = .retiring then (s, .wrongState)
      else (setPermit x (profileOf c) (modU u (fun r => { r with staged := some (profileOf c) }) s), .done)
    | none => if (findPermit x s).isSome then (setPermit x (profileOf c) s, .done) else (s, .unknownSerial)

end Sys2Proof.Machine
end

