-- ==== Sys2Proof/Machine/Enrolment.lean ====
section
/-!
DEFINITION. The Enrolment Controller (chapter 3): permits and strangers, what a heard serial leads to, claims on this
station's records, the ranging queue and attempts, and drift.
-/
namespace Sys2Proof.Machine

/-! ### Permits (R40 to R42) -/

/-- The permit for the serial is removed (R40). -/
def removePermit (x : Serial) (s : State) : State :=
  { s with ec := { s.ec with permits := s.ec.permits.filter (fun p => p.serial ≠ x) } }

/-- The strangers-list entry for the serial is removed (R41, R43). -/
def removeStranger (x : Serial) (s : State) : State :=
  { s with ec := { s.ec with strangers := s.ec.strangers.filter (fun e => e.serial ≠ x) } }

/-- PERMIT (R41): the tests in their order, what the order does, and its outcome. -/
def permitOrder (x : Serial) (c : ProfileCodes) (s : State) : State × AnswerOutcome :=
  if !codesOk c then (s, .badField)
  else if isBarred x s then (s, .barred)
  else if (findUnit x s).isSome then (s, .wrongState)
  else if (findPermit x s).isSome then (removeStranger x (setPermit x (profileOf c) s), .done)
  else if 16 ≤ s.ec.permits.length then (s, .full)
  else (removeStranger x { s with ec := { s.ec with permits := s.ec.permits ++ [⟨x, profileOf c⟩] } }, .done)

/-- WITHDRAW (R42): what the order does, and its outcome. -/
def withdrawOrder (x : Serial) (s : State) : State × AnswerOutcome :=
  if (findPermit x s).isSome then
    match findUnit x s with
    | some u => if neverServed (getU u s) then (directFree u (removePermit x s), .done) else (removePermit x s, .done)
    | none => (removePermit x s, .done)
  else if (findUnit x s).isSome then (s, .wrongState)
  else (s, .unknownSerial)

/-! ### Strangers (R43) -/

/-- An unpermitted serial is heard (R43). -/
def hearStranger (x : Serial) (s : State) : State :=
  if s.ec.strangers.any (fun e => e.serial == x) then
    { s with ec := { s.ec with strangers := s.ec.strangers.filter (fun e => e.serial ≠ x) ++ [⟨x, 0⟩] } }
  else
    let kept := if 8 ≤ s.ec.strangers.length then s.ec.strangers.drop 1 else s.ec.strangers
    occur .stranger (some x) { s with ec := { s.ec with strangers := kept ++ [⟨x, 0⟩] } }

/-- The entry for the serial has reached the age of 240,000 rounds and is removed (R43). -/
def strangerStep (x : Serial) (s : State) : State :=
  { s with ec := { s.ec with strangers := s.ec.strangers.filter (fun e => !(e.serial == x && decide (240000 ≤ e.age))) } }

/-! ### What a heard serial leads to (R45 to R50) -/

/-- The RTD of a response, in bits, which may work out negative (R45). -/
def responseRtd (c : ReachClass) (b : Burst) : Int :=
  burstOrigin b - 32 * ((span c : Int) + b.header.spread.toNat) + teq c

/-- A valid RTD lies within RTDmin..Teq (R45). -/
def rtdValid (c : ReachClass) (rtd : Int) : Bool := decide ((rtdMin c : Int) ≤ rtd) && decide (rtd ≤ (teq c : Int))

/-- A stored claiming claim beats a burst level heard here: a higher level, or the same and a lower station (R48, step 3). -/
def claimBeats (own : TreeStation) (level : Nat) (e : ClaimEntry) : Bool :=
  decide (level < e.level) || (e.level == level && decide (e.peer < own))

/-- The record the UT gives for a new serial: the lowest that is allocatable (R29). -/
def allocatableUnit (s : State) : Option UnitNo := allUnits.find? (fun u => allocatable (getU u s))

/-- Allocation (R29, R48): the record is filled, the measurement is kept, and the claiming notice is queued. -/
def allocate (u : UnitNo) (x : Serial) (p : Profile) (level rtd : Nat) (s : State) : State :=
  queueClaiming u
    (modE u (fun e => { freedEc e with measurement := some rtd })
      (setU u { UnitRecord.blank with state := .claiming, serial := some x, profile := p, level := level } s))

/-- A permitted serial that no record holds (R48). -/
def hearPermitted (x : Serial) (p : Permit) (rtd : Int) (level : Nat) (s : State) : State :=
  if !rtdValid s.sc.reach rtd then occur .outOfReach (some x) s
  else if s.dv.claims.any (fun e => e.serial == x && e.kind == .held) then occur .duplicateSerial (some x) s
  else if s.dv.claims.any (fun e => e.serial == x && e.kind == .claiming && claimBeats s.sc.station level e) then
    occur .claimYielded (some x) s
  else match allocatableUnit s with
    | none => occur .tableFull (some x) s
    | some u => allocate u x p.profile level rtd.toNat s

/-- A heard serial that record `u` holds (R47). -/
def hearHeld (u : UnitNo) (x : Serial) (rtd : Int) (s : State) : State :=
  if !serves (getU u s) then s
  else if rtdValid s.sc.reach rtd then
    offerAssign u (enterRanging u true (some (teq s.sc.reach - rtd.toNat)) s)
  else occur .outOfReach (some x) s

/-- A heard serial, by the first case that fits (3.4, R46 to R49). -/
def hearSerial (x : Serial) (rtd : Int) (level : Nat) (s : State) : State :=
  if isBarred x s then occur .barredSeen (some x) s
  else match findUnit x s with
    | some u => hearHeld u x rtd s
    | none =>
      match findPermit x s with
      | some p => hearPermitted x p rtd level s
      | none => hearStranger x s

/-- The held plan of a round (R70). -/
def findPlan (n : Nat) (s : State) : Option Plan := s.gs.plans.find? (fun p => p.round == n)

/-- The held plan of a round goes through `f`. -/
def modPlan (n : Nat) (f : Plan → Plan) (s : State) : State :=
  { s with gs := { s.gs with plans := s.gs.plans.map (fun p => if p.round = n then f p else p) } }

/-- A plan holds a discovery window (R71). -/
def hasDiscovery (p : Plan) : Bool := p.grants.any (fun g => g.kind == .discovery)

/-- The receiver accepts a response (R16). -/
def acceptsResponse (c : ReachClass) (b : Burst) : Bool :=
  (foundIn 0 (span c + 76) (some b)).isSome && decide (0 ≤ burstOrigin b) && headerOk b.header && burstOk 2 b
    && b.header.kind == 4 && decide (b.header.spread.toNat ≤ 63)

/-- DISCOVERY_RESPONSE (R16, R45): one of the first eight responses that the receiver accepts in the window is handed to the
EC, which discards it outside SERVING. -/
def discoveryStep (n : Nat) (b : Burst) (s : State) : State :=
  match findPlan n s with
  | none => s
  | some p =>
    if hasDiscovery p && acceptsResponse s.sc.reach b && decide (p.accepted < 8) then
      let s1 := modPlan n (fun q => { q with accepted := q.accepted + 1 }) s
      if s.sc.phase = .serving then
        hearSerial (payloadSerial b) (responseRtd s.sc.reach b) (meanLevel b.preamble) s1
      else s1
    else s

/-! ### Claims on this station's records (R52 to R56) -/

/-- The claim settle of the record runs out: RANGING with returning clear, from its discovery measurement (R52). -/
def settleStep (u : UnitNo) (s : State) : State :=
  if settleExpired (getU u s) then
    let prov := (getE u s).measurement.map (fun rtd => teq s.sc.reach - rtd)
    offerAssign u (modU u (fun r => { r with eqd := prov }) (enterRanging u false prov s))
  else s

/-- This station's record wins against a claiming claim of level `level` from station `t` (R53). -/
def winsClaim (r : UnitRecord) (level : Nat) (t : TreeStation) (s : State) : Bool :=
  decide (level < r.level) || (r.level == level && decide (s.sc.station < t))

/-- The record yields its serial (R53, R54): the released claim is offered before the CLAIM_YIELDED notice, in
the order in which the rule names them (log entry 14). -/
def yieldClaim (u : UnitNo) (x : Serial) (s : State) : State := occur .claimYielded (some x) (directFree u s)

/-- An arriving claim is judged against this station's record for the serial (R53 to R56). -/
def judgeClaim (x : Serial) (t : TreeStation) (level : Nat) (k : ClaimKind) (s : State) : State :=
  match findUnit x s with
  | none => s
  | some u =>
    if neverServed (getU u s) then
      match k with
      | .claiming => if winsClaim (getU u s) level t s then s else yieldClaim u x s
      | .held => yieldClaim u x s
      | .released => s
    else if inService (getU u s) then
      match k with
      | .claiming => queueHeld u s
      | .held => occur .duplicateSerial (some x) (modU u (fun r => { r with disputed := true }) s)
      | .released => s
    else s

/-- A lost claim notice for the serial is due to be offered again (R51). -/
def dueClaim (x : Serial) (c : LostClaim) : Bool := c.serial == x && c.due

/-- The notice of a lost claiming claim is still the one its record waits on (R51). -/
def stillClaiming (c : LostClaim) (s : State) : Bool :=
  (getU c.owner s).state == .claiming && !(getU c.owner s).settleStarted && (getE c.owner s).claimRef == some c.ref

/-- The first lost claim notice due for the serial is offered again while still needed, or let go (R51). -/
def claimReofferStep (x : Serial) (s : State) : State :=
  match s.ec.lostClaims.find? (dueClaim x) with
  | none => s
  | some c =>
    let s1 := { s with ec := { s.ec with lostClaims := s.ec.lostClaims.erase c } }
    match c.kind with
    | .claiming => if stillClaiming c s1 then queueClaiming c.owner s1 else s1
    | .released => if (findUnit x s1).isSome then s1 else queueReleased c.owner x c.level s1
    | .held => s1

/-- A refused ASSIGN is offered again while the record is RANGING (R59). -/
def assignStep (u : UnitNo) (s : State) : State :=
  if (getE u s).assignWait.isDue && (getU u s).state == .ranging then offerAssign u s else s

/-- The claim refresh of a serving record runs out: a held claim is queued and the countdown starts again at 4,000, refused or
not (R161). -/
def refreshStep (u : UnitNo) (s : State) : State :=
  if refreshExpired (getU u s) then modU u (fun r => { r with claimRefresh := 4000 }) (queueHeld u s) else s

/-! ### Ranging (R60 to R65) -/

/-- The record may be given a ranging window in a plan whose frame carries `carried` (R60). R60 names the orders offered since the
entry to RANGING, and R105 an EQD "still on its way": that an EQD offered before the entry and carried in the very frame being
planned keeps the record out of that plan is the model's choice (log entry 23). -/
def rangingEligible (carried : List PuOrder) (s : State) (u : UnitNo) : Bool :=
  !(getE u s).attemptPending && !(getU u s).hush && !assignQueued u s && !eqdQueued u s && (getE u s).assignWait == .idle
    && !carried.any (fun o => isAssignFor u o || isEqdFor u o)

/-- The records the EC names for ranging: the first two eligible ones of the queue (R60). -/
def rangingPick (carried : List PuOrder) (s : State) : List UnitNo :=
  if s.sc.phase = .serving ∧ s.lm.iso.phase = .watch then
    (s.ec.rangingQueue.filter (rangingEligible carried s)).take 2
  else []

/-- A discovery window is due (R44). -/
def discoveryDue (s : State) : Bool :=
  s.sc.phase == .serving && s.lm.iso.phase == .watch
    && (!s.ec.permits.isEmpty || allUnits.any (fun u => (getU u s).state == .lost))
    && decide ((inForce s).interval ≤ s.ec.sinceDiscovery)

/-- An EQD is offered for the unit and, if taken, becomes the record's EqD with a correction hold of 4 (R62, R66). -/
def offerEqd (u : UnitNo) (q : Nat) (s : State) : State :=
  if queueHasRoom 1 s then
    modU u (fun r => { r with eqd := some q, corrHold := 4 }) (offerOrder .ec (.eqd u q) s)
  else s

/-- An accepted attempt whose final EqD is in reach (R62). -/
def rangingSuccess (u : UnitNo) (prov final : Nat) (s : State) : State :=
  let s1 := modU u (fun r => { r with eqd := some prov }) s
  let s2 := if final = prov then s1 else offerEqd u final s1
  let s3 := leaveRangingQueue u s2
  let s4 := modU u (fun r =>
    { r with state := .active, provEqd := none, attempts := 0, credit := 3072, silent := 0, streak := 0, poll := 8,
             claimRefresh := 4000 }) s3
  let s5 := match (getU u s).serial with
    | some x => removePermit x s4
    | none => s4
  let s6 := modU u (fun r => { r with everActive := true }) (queueHeld u s5)
  if (getU u s).everActive then s6 else occur .unitJoined (getU u s).serial s6

/-- An accepted attempt whose final EqD is out of reach (R63). -/
def rangingOutOfReach (u : UnitNo) (s : State) : State := endService u (occur .outOfReach (getU u s).serial s)

/-- The fourth failure of a returning record: LOST with the EqD it held, and an EQD naming it when the PU was sent another
(R64). -/
def rangingLost (u : UnitNo) (s : State) : State :=
  let r := getU u s
  let s1 := modU u (fun r =>
    { r with state := .lost, lostHold := 240000, poll := 64, provEqd := none, attempts := 0, claimRefresh := 4000 })
    (leaveRangingQueue u s)
  let s2 := match r.eqd with
    | some q => if r.provEqd = some q then s1 else offerEqd u q s1
    | none => s1
  queueHeld u s2

/-- A failed attempt (R64). -/
def rangingFailure (u : UnitNo) (s : State) : State :=
  let s1 := modU u (fun r => { r with attempts := r.attempts + 1 }) s
  if (getU u s1).attempts < 4 then
    { s1 with ec := { s1.ec with rangingQueue := s1.ec.rangingQueue.filter (· ≠ u) ++ [u] } }
  else
    let s2 := occur .rangingFailed (getU u s).serial s1
    if (getU u s).returning then rangingLost u s2 else directFree u s2

/-- The findings of a ranging window are accepted (R61). -/
def acceptsRanging (u : UnitNo) (start : Nat) (b : Burst) : Bool :=
  decide ((burstDelta start b).natAbs ≤ 256) && headerOk b.header && burstOk 2 b && b.header.kind == 3
    && decide (b.header.unit.toNat = u.val) && b.payload.all (· == 90)

/-- The findings for the ranging grant of `u` that starts at grain `start` are judged, for a record with attempt pending
(R61 to R65). -/
def judgeRanging (u : UnitNo) (start : Nat) (found : Option Burst) (s : State) : State :=
  if !(getE u s).attemptPending then s
  else
    let s1 := modE u (fun e => { e with attemptPending := false }) s
    match foundIn (start - 8) 28 found, (getU u s).provEqd with
    | some b, some prov =>
      if acceptsRanging u start b then
        let final := (prov : Int) - burstDelta start b
        if 0 ≤ final ∧ final ≤ (teq s.sc.reach : Int) then rangingSuccess u prov final.toNat s1 else rangingOutOfReach u s1
      else rangingFailure u s1
    | _, _ => rangingFailure u s1

/-- RANGING_ATTEMPT (R61): the findings for the unit's ranging grant in a held plan. -/
def rangingStep (n : Nat) (u : UnitNo) (found : Option Burst) (s : State) : State :=
  match findPlan n s with
  | none => s
  | some p =>
    match p.grants.find? (fun g => g.kind == .ranging && g.unit == u.val) with
    | none => s
    | some g => judgeRanging u g.start found s

/-! ### Drift (R66, R67) -/

/-- The EqD that a correction works out: EqD − δ, held within 0..Teq (R66). -/
def correctedEqd (c : ReachClass) (q : Nat) (d : Int) : Nat := min (teq c) ((q : Int) - d).toNat

/-- The correction would pass an edge of the reach class (R66). -/
def passesEdge (c : ReachClass) (q : Nat) (d : Int) : Bool :=
  decide ((q : Int) - d < 0) || decide ((teq c : Int) < (q : Int) - d)

/-- A VALID burst's δ reaches the EC (R66). -/
def driftStep (u : UnitNo) (d : Int) (s : State) : State :=
  let r := getU u s
  match r.eqd with
  | none => s
  | some q =>
    if serves r && decide (9 ≤ d.natAbs) && decide (d.natAbs ≤ 64) && decide (r.corrHold = 0) && !eqdQueued u s then
      let s1 := if passesEdge s.sc.reach q d then occur .reachEdge r.serial s else s
      if correctedEqd s.sc.reach q d = q then s1 else offerEqd u (correctedEqd s.sc.reach q d) s1
    else s

end Sys2Proof.Machine
end

