-- ==== Sys2Proof/Machine/District.lean ====
section
/-!
DEFINITION. The District View (chapter 8): the load table and the district factor, the claims list, the barred list, and the
handling of peer notices.
-/
namespace Sys2Proof.Machine

/-! ### Peer notices (R152) -/

/-- The tree controller that sent a notice the DV takes: a sender 0..15 other than this station, and the notice addressed to
this station or to all (R152, R173). -/
def peerOf (h : NoticeHead) (s : State) : Option TreeStation :=
  if hs : h.sender.val < 16 then
    if h.sender.val = s.sc.station.val then none
    else if h.dest.val = 31 ∨ h.dest.val = s.sc.station.val then some ⟨h.sender.val, hs⟩
    else none
  else none

/-! ### Load table (R153 to R156) -/

/-- F is recomputed from the present loads and K (R156). -/
def recomputeF (s : State) : State :=
  { s with dv := { s.dv with factor := factorOf (inForce s).budget (loadSum s.dv.loads) } }

/-- A load entry becomes absent, with L 0 and age 0 (R153). -/
def absentLoad : LoadEntry := { load := 0, age := 0, present := false }

/-- Entry `t` of the load table becomes `e`. -/
def setLoad (t : TreeStation) (e : LoadEntry) (s : State) : State :=
  { s with dv := { s.dv with loads := s.dv.loads.set t e } }

/-- A peer entry at an interval close: a present one ages, and one that reaches age 4 becomes absent (R154). -/
def ageLoad (e : LoadEntry) : LoadEntry :=
  if e.present then (if 3 ≤ e.age then absentLoad else { e with age := e.age + 1 }) else e

/-- The own load is handed over at an interval close: the own entry is set, the peer entries age, F is recomputed (R154). -/
def closeLoads (load : Nat) (s : State) : State :=
  recomputeF (setLoad s.sc.station { load := load, age := 0, present := true }
    { s with dv := { s.dv with loads := vmap ageLoad s.dv.loads } })

/-- A load notice from peer `t` sets its entry; a load above 12,484 is taken as 12,484 (R155). -/
def loadStep (h : NoticeHead) (b : LoadBody) (s : State) : State :=
  match peerOf h s with
  | none => s
  | some t => recomputeF (setLoad t { load := min 12484 b.load.toNat, age := 0, present := true } s)

/-! ### Barred list (R162 to R165) -/

/-- An entry joins the end of the barred list, unless the serial is listed; a full list gives up its oldest entry (R162). -/
def addBar (e : BarEntry) (s : State) : State :=
  if isBarred e.serial s then s
  else if 16 ≤ s.dv.barred.length then
    { s with dv := { s.dv with barred := s.dv.barred.drop 1 ++ [e], evictions := satAdd 65535 s.dv.evictions 1 } }
  else { s with dv := { s.dv with barred := s.dv.barred ++ [e] } }

/-- This station's condemnation: the entry is added and a bar notice is queued, whether or not it was (R163). -/
def ownBar (x : Serial) (why : BarReason) (s : State) : State :=
  offerNotice (.bar x why) (addBar ⟨x, s.sc.station, why⟩ s)

/-- The reason a bar notice's byte names, if it is one (R152, 9.8.5). -/
def barReasonOf (b : Byte) : Option BarReason :=
  if b = 1 then some .rogue else if b = 2 then some .tail else none

/-- The effect of a bar for serial `x` on this station's record (R165). That a freed record's released claim is offered before the
BARRED_SEEN notice is the model's choice (log entry 14). -/
def barOnRecord (x : Serial) (s : State) : State :=
  match findUnit x s with
  | none => s
  | some u =>
    if neverServed (getU u s) then occur .barredSeen (some x) (directFree u s)
    else if inService (getU u s) then occur .barredInService (some x) (modU u (fun r => { r with disputed := true }) s)
    else s

/-- A bar notice from a peer (R152, R164). -/
def barStep (h : NoticeHead) (x : Serial) (reason : Byte) (s : State) : State :=
  match peerOf h s, barReasonOf reason with
  | some t, some why => barOnRecord x (addBar ⟨x, t, why⟩ s)
  | _, _ => s

/-- A lost bar notice for the serial is due (R163). -/
def dueBar (x : Serial) (b : LostBar) : Bool := b.serial == x && b.due

/-- The list holds an entry for the serial with origin this station (R163). -/
def ownBarred (x : Serial) (s : State) : Bool := s.dv.barred.any (fun e => e.serial == x && e.origin == s.sc.station)

/-- The first lost bar notice due for the serial is offered again while this station's entry stands, or let go (R163). -/
def barReofferStep (x : Serial) (s : State) : State :=
  match s.dv.lostBars.find? (dueBar x) with
  | none => s
  | some b =>
    let s1 := { s with dv := { s.dv with lostBars := s.dv.lostBars.erase b } }
    if ownBarred x s1 then offerNotice (.bar x b.reason) s1 else s1

/-- UNBAR (R166): what the order does, its outcome, and the counts of its answer. -/
def unbarOrder (x : Serial) (s : State) : State × AnswerOutcome × KindData :=
  let s1 := { s with dv := { s.dv with barred := s.dv.barred.filter (fun b => b.serial ≠ x) } }
  (s1, if isBarred x s then .done else .unknownSerial,
   .unbar s1.dv.barred.length s1.dv.claimsOverflow s1.dv.evictions)

/-! ### Claims list (R157 to R160) -/

/-- The entry has key (X, T) (R157). -/
def hasKey (x : Serial) (t : TreeStation) (e : ClaimEntry) : Bool := e.serial == x && e.peer == t

/-- A full list makes room: the oldest claiming entry goes, or else the oldest held one (R158). -/
def makeRoom (l : List ClaimEntry) : List ClaimEntry :=
  match l.find? (fun e => e.kind == .claiming) with
  | some e => l.erase e
  | none => l.drop 1

/-- A claiming or held claim is stored (R158). -/
def storeClaim (x : Serial) (t : TreeStation) (level : Nat) (k : StoredClaim) (s : State) : State :=
  let e : ClaimEntry := { serial := x, peer := t, level := level, kind := k, age := 0 }
  if s.dv.claims.any (hasKey x t) then
    { s with dv := { s.dv with claims := s.dv.claims.filter (fun c => !hasKey x t c) ++ [e] } }
  else if s.dv.claims.length < 32 then { s with dv := { s.dv with claims := s.dv.claims ++ [e] } }
  else { s with dv := { s.dv with claims := makeRoom s.dv.claims ++ [e], claimsOverflow := satAdd 65535 s.dv.claimsOverflow 1 } }

/-- The kind of a stored claim as the EC judges it (R158). -/
def storedKind : StoredClaim → ClaimKind
  | .claiming => .claiming
  | .held => .held

/-- A claiming or held claim notice: it is stored, and then passed to the EC (R152, R158). -/
def claimStep (h : NoticeHead) (x : Serial) (level : BitVec 16) (k : StoredClaim) (s : State) : State :=
  match peerOf h s with
  | none => s
  | some t =>
    if 1023 < level.toNat then s else judgeClaim x t level.toNat (storedKind k) (storeClaim x t level.toNat k s)

/-- A released claim notice removes the peer's entry for the serial and is passed to the EC (R152, R159). -/
def releasedStep (h : NoticeHead) (x : Serial) (level : BitVec 16) (s : State) : State :=
  match peerOf h s with
  | none => s
  | some t =>
    if 1023 < level.toNat then s
    else judgeClaim x t level.toNat .released
      { s with dv := { s.dv with claims := s.dv.claims.filter (fun c => !hasKey x t c) } }

/-- How long an entry stands, in rounds (R160). -/
def claimLife : StoredClaim → Nat
  | .claiming => 400
  | .held => 16000

/-- The entry has run out (R160). -/
def claimExpired (e : ClaimEntry) : Bool := decide (claimLife e.kind ≤ e.age)

/-- The entry with key (X, T) is removed if it has run out (R160). -/
def claimExpiryStep (x : Serial) (t : TreeStation) (s : State) : State :=
  { s with dv := { s.dv with claims := s.dv.claims.filter (fun e => !(hasKey x t e && claimExpired e)) } }

/-! ### Presence notices (R167) -/

/-- One held claim for each ACTIVE and LOST record, in unit-number order (R167, step 3). -/
def answerHeld (s : State) : State :=
  (allUnits.filter (fun u => serves (getU u s))).foldl (fun t u => queueHeld u t) s

/-- One bar notice for each entry of this station's origin, in list order (R167, step 4). -/
def answerBars (s : State) : State :=
  (s.dv.barred.filter (fun e => e.origin == s.sc.station)).foldl (fun t e => offerNotice (.bar e.serial e.reason) t) s

/-- A presence notice from a peer (R167). -/
def presenceStep (h : NoticeHead) (s : State) : State :=
  match peerOf h s with
  | none => s
  | some t =>
    let s1 := recomputeF (setLoad t absentLoad s)
    answerBars (answerHeld { s1 with dv := { s1.dv with claims := s1.dv.claims.filter (fun e => e.peer ≠ t) } })

/-- A peer entry ages out with the interval close at hand (R154; log entry 9). -/
def loadAgeOutStep (t : TreeStation) (s : State) : State :=
  let e := s.dv.loads.get t
  if s.gs.intervalCount = 64 ∧ t ≠ s.sc.station ∧ e.present ∧ 3 ≤ e.age then recomputeF (setLoad t absentLoad s) else s

end Sys2Proof.Machine
end

