-- ==== Sys2Proof/Machine/Light.lean ====
section
/-!
DEFINITION. The Light Monitor (chapter 6): condemnation, tail events, and what each dark judgement does to the isolation
machine.
-/
namespace Sys2Proof.Machine

/-! ### Condemnation (R114) -/

/-- A BAR_SERIAL standing alone is offered, and a refused one waits (R114). -/
def offerBarSerial (x : Serial) (s : State) : State :=
  if queueHasRoom 1 s then offerOrder .lm (.barSerial x) s
  else { s with lm := { s.lm with barWait := s.lm.barWait ++ [⟨x, false⟩] } }

/-- A refused BAR_SERIAL is offered again after the next frame (R114). -/
def barSerialStep (x : Serial) (s : State) : State :=
  match s.lm.barWait.find? (fun b => b.serial == x && b.due) with
  | none => s
  | some b => offerBarSerial x { s with lm := { s.lm with barWait := s.lm.barWait.erase b } }

/-- Steps 1 to 4 of a condemnation but for the BAR_SERIAL itself (R114): bar sent is set, service is closed, the serial is
barred in the district, and ROGUE_CONDEMNED occurs. -/
def condemnRecord (u : UnitNo) (x : Serial) (why : BarReason) (s : State) : State :=
  occur .rogueCondemned (some x) (ownBar x why (endService u (modU u (fun r => { r with barSent := true }) s)))

/-- A tail condemnation: the BAR_SERIAL is offered alone (R114, R132). -/
def condemnTail (u : UnitNo) (s : State) : State :=
  match (getU u s).serial with
  | none => s
  | some x => condemnRecord u x .tail (offerBarSerial x s)

/-- The verdict CONDEMNED (R126): the machine returns to WATCH, the unit is condemned, and one closing offer carries its
BAR_SERIAL and then a SPEAK_ALL. -/
def verdictCondemned (u : UnitNo) (s : State) : State :=
  let s1 := modIso (fun m => { searchEnded m with phase := .watch }) s
  match (getU u s).serial with
  | none => s1
  | some x => addClosings [⟨[.barSerial x, .speakAll], .all⟩] (condemnRecord u x .rogue s1)

/-! ### Tail events (R112 to R116) -/

/-- A span that has run out is forgotten (R115). -/
def tailSpanStep (u : UnitNo) (s : State) : State :=
  if tailSpanOver (getU u s) then modU u (fun r => { r with tailEvents := 0, tailSpan := 0 }) s else s

/-- Four tail events: TAIL_RERANGE occurs and the record is ranged again, or condemned at the third time (R116). -/
def tailRerange (u : UnitNo) (s : State) : State :=
  let s1 := occur .tailRerange (getU u s).serial
    (modU u (fun r => { r with tailEvents := 0, tailSpan := 0, tailReranges := r.tailReranges + 1 }) s)
  if (getU u s1).tailReranges < 3 then reRange u s1 else condemnTail u s1

/-- A tail event is charged to the unit; it counts against a record in ACTIVE or LOST alone (R113, R115, R116). -/
def chargeTail (u : UnitNo) (s : State) : State :=
  if serves (getU u s) then
    let s1 := modU u (fun r =>
      { r with tailEvents := r.tailEvents + 1, tailSpan := if r.tailEvents = 0 then 0 else r.tailSpan }) (tailSpanStep u s)
    if 4 ≤ (getU u s1).tailEvents then tailRerange u s1 else s1
  else s

/-- A guard sample of the unit's own grant advances its open span (R115). -/
def advanceSpan (u : UnitNo) (s : State) : State :=
  if serves (getU u s) then
    modU u (fun r => if 1 ≤ r.tailEvents then { r with tailSpan := r.tailSpan + 1 } else r) (tailSpanStep u s)
  else s

/-- The unit of the data or report-only grant whose last grain is the one before `start` (R112). -/
def predecessor (start : Nat) (p : Plan) : Option GrantRecord :=
  p.grants.find? (fun g => (g.kind == .data || g.kind == .reportOnly) && g.start + g.length == start)

/-- The unit with number `n`, if `n` is one: a field above 63 names no record (R113). -/
def unitOf (n : Nat) : Option UnitNo := if h : n < 64 then some ⟨n, h⟩ else none

/-- A tail event is charged to the unit that a number names, if it names one (R112, R113). -/
def chargeNamed (n : Nat) (s : State) : State :=
  match unitOf n with
  | some u => chargeTail u s
  | none => s

/-- The unit's data or report-only grant in a plan (R93). -/
def unitGrant (u : UnitNo) (p : Plan) : Option GrantRecord :=
  p.grants.find? (fun g => (g.kind == .data || g.kind == .reportOnly) && g.unit == u.val)

/-- The unit's data or report-only grant in a plan goes through `f`. -/
def modGrant (n : Nat) (u : UnitNo) (f : GrantRecord → GrantRecord) (s : State) : State :=
  modPlan n (fun p => { p with grants := p.grants.map (fun g =>
    if (g.kind == .data || g.kind == .reportOnly) && g.unit == u.val then f g else g) }) s

/-- GUARD_SAMPLE (R112): a lit guard is charged to the unit whose grant ended on the grain before, or else to the grant's own;
the charge is counted before the unit's own span advances (R115). -/
def guardStep (n : Nat) (u : UnitNo) (readings : List Nat) (s : State) : State :=
  match findPlan n s with
  | none => s
  | some p =>
    match unitGrant u p with
    | none => s
    | some g =>
      if g.guarded then s
      else
        let s1 := modGrant n u (fun g => { g with guarded := true }) s
        let s2 := if isLit (peakLevel readings) s then
            chargeNamed (match predecessor g.start p with
              | some q => q.unit
              | none => u.val) s1
          else s1
        advanceSpan u s2

/-! ### The isolation machine (R118 to R126) -/

/-- Entry to CONFIRM (R121). -/
def enterConfirm (s : State) : State :=
  offerStep .confirm (modIso (fun m => { searchEnded m with phase := .confirm }) s)

/-- The first BISECT step, or the one after a clear result: the first half of C speaks (R123). -/
def speakHalf (s : State) : State :=
  offerStep .speak (modIso (fun m => { m with phase := .bisect, speak := firstHalf m.cand, hush := [] }) s)

/-- The result of the CONFIRM test (R122). -/
def confirmResult (lit : Bool) (s : State) : State :=
  if lit then verdictUnlocated s
  else
    let c := s.lm.iso.hushedSet.filter (fun u => onTree (getU u s))
    if c = [] then verdictUnenrolled s else speakHalf (modIso (fun m => { m with cand := c }) s)

/-- A BISECT test gives lit: L is condemned if it is one unit, and halved otherwise (R123, R124). -/
def bisectLit (s : State) : State :=
  match s.lm.iso.speak with
  | [u] => verdictCondemned u s
  | l => offerStep .hush (modIso (fun m =>
      { m with cand := l, speak := firstHalf l, hush := l.drop ((l.length + 1) / 2) }) s)

/-- A BISECT test gives clear: L leaves C (R125). -/
def bisectClear (s : State) : State :=
  let c := s.lm.iso.cand.filter (fun u => u ∉ s.lm.iso.speak)
  if c = [] then verdictUnenrolled (modIso (fun m => { m with cand := [] }) s)
  else speakHalf (modIso (fun m => { m with cand := c }) s)

/-- The fourth sample of a test gives the result: lit when 2 or more of the 4 were lit (R120). -/
def testResult (s : State) : State :=
  let lit := decide (2 ≤ s.lm.iso.litSamples)
  let s1 := modIso (fun m => { m with step := .idle }) s
  match s.lm.iso.phase with
  | .confirm => confirmResult lit s1
  | .bisect => if lit then bisectLit s1 else bisectClear s1
  | .watch => s
  | .holdoff => s

/-- A dark judgement during CONFIRM or BISECT: it counts when it is one of the test's four rounds (R120). -/
def testSample (n : Nat) (lit : Bool) (s : State) : State :=
  let m := s.lm.iso
  if (m.step = .settling ∨ m.step = .sampling) ∧ 8 ≤ roundsFrom m.carriage n ∧ roundsFrom m.carriage n ≤ 11 then
    let s1 := modIso (fun m =>
      { m with step := .sampling, samples := m.samples + 1, litSamples := m.litSamples + lit.toNat }) s
    if 4 ≤ s1.lm.iso.samples then testResult s1 else s1
  else s

/-- WATCH may count the judgement of arrival round `n` (R117, R118): "or later" is read within half the range of the round
number (log entry 12). -/
def watchCounts (n : Nat) : CountFrom → Bool
  | .any => true
  | .held => false
  | .fromRound c => decide (roundsFrom c n < 32768)

/-- A dark judgement in WATCH (R118). -/
def watchSample (n : Nat) (lit : Bool) (s : State) : State :=
  if s.sc.phase ≠ .serving then modIso (fun m => { m with litRun := 0 }) s
  else if watchCounts n s.lm.iso.countFrom then
    let s1 := modIso (fun m => { m with countFrom := .any, litRun := if lit then m.litRun + 1 else 0 }) s
    if lit && decide ((inForce s).litCount ≤ s1.lm.iso.litRun) then enterConfirm s1 else s1
  else s

/-- The judgement goes to the machine, whose phase decides what it does (R111, R129). -/
def judgeDark (n : Nat) (lit : Bool) (s : State) : State :=
  match s.lm.iso.phase with
  | .watch => watchSample n lit s
  | .confirm => testSample n lit s
  | .bisect => testSample n lit s
  | .holdoff => s

/-- DARK_SAMPLE (R111): the judgement becomes the last dark judgement and goes to the machine; arrival round `n` has ended, and
its grant records are discarded (R70). -/
def darkStep (n : Nat) (readings : List Nat) (s : State) : State :=
  let lit := isLit (peakLevel readings) s
  judgeDark n lit
    { s with lm := { s.lm with lastDark := lit }, gs := { s.gs with plans := s.gs.plans.filter (fun p => p.round ≠ n) } }

/-! ### Steps and closing offers again (R119, R127, R129) -/

/-- A refused step or closing offer is offered again after the next frame (R119). -/
def stepReofferStep (s : State) : State :=
  if s.lm.iso.stepDue then
    if s.lm.iso.step = .waiting then offerStep s.lm.iso.stepKind s else offerClosings s.lm.iso.closing s
  else s

/-- The hush flags of every carried step are cleared (R119). -/
def hushClearStep (s : State) : State :=
  s.lm.iso.clearings.foldl (fun t c => clearHush c.clears t) (modIso (fun m => { m with clearings := [] }) s)

/-- The holdoff count has reached 0: a SPEAK_ALL for an unenrolled cause, and back to WATCH (R129). -/
def holdoffStep (s : State) : State :=
  if s.lm.iso.phase = .holdoff ∧ s.lm.iso.holdoff = 0 then
    let s1 := modIso (fun m => { m with phase := .watch, litRun := 0, cause := .none }) s
    match s.lm.iso.cause with
    | .unenrolled => addClosings [⟨[.speakAll], .nothing⟩] s1
    | _ =>
      if s.lm.iso.closing = [] ∧ s.lm.iso.closingOut = 0 then modIso (fun m => { m with countFrom := .any }) s1 else s1
  else s

/-- The serials whose BAR_SERIAL stands in a closing offer not yet taken (R133). -/
def barredInClosing (o : ClosingOffer) : List Serial :=
  o.orders.filterMap (fun x => match x with
    | .barSerial y => some y
    | _ => none)

/-- A RESTART ends the search without a verdict (R133): every list, step, test and closing offer is dropped, every hush flag is
cleared, and the BAR_SERIAL of a dropped closing offer is still offered until taken. -/
def abortSearch (s : State) : State :=
  let bars := (s.lm.iso.closing.flatMap barredInClosing).map (fun x => (⟨x, false⟩ : WaitingBar))
  mapU (fun r => { r with hush := false })
    { s with
      lm := { s.lm with iso := Isolation.atReset, barWait := s.lm.barWait ++ bars }
      tli := { s.tli with queue := s.tli.queue.map (fun q => { q with mark := .plain }) } }

end Sys2Proof.Machine
end

