-- ==== Sys2Proof/Machine/Bursts.lean ====
section
/-!
DEFINITION. The Burst Meter (chapter 5): the outcome of a data or report-only grant, and its effects by the state of the
record.
-/
namespace Sys2Proof.Machine

/-- The five outcomes of a grant (R94); WRONG_UNIT keeps the unit field of the burst's header (R100). -/
inductive BurstOutcome where
  | missing
  | wrongUnit (named : Nat)
  | misaligned
  | errored
  | valid
  deriving DecidableEq, Repr

/-- The payload of a grant, P = Pc + Pe grains (R94). -/
def grantPayload (g : GrantRecord) : Nat := g.pc + g.pe

/-- The tests of R94 on a burst found in the grant's span, in their order. -/
def outcomeFound (g : GrantRecord) (b : Burst) : BurstOutcome :=
  if headerOk b.header && decide (b.header.unit.toNat ≠ g.unit) then .wrongUnit b.header.unit.toNat
  else if 64 < (burstDelta g.start b).natAbs then .misaligned
  else if !headerOk b.header || decide (b.header.kind.toNat ≠ g.kind.code)
      || decide (4 * grantPayload g < b.header.dlen.toNat) || !burstOk (grantPayload g) b then .errored
  else .valid

/-- The outcome of a grant (R94): MISSING when no delimiter was found in its span (R15). -/
def outcomeOf (g : GrantRecord) (found : Option Burst) : BurstOutcome :=
  match foundIn g.start g.length found with
  | none => .missing
  | some b => outcomeFound g b

/-- The level average moves one eighth of the way to the burst level, rounded toward minus infinity (R97). -/
def levelStep (avg level : Nat) : Nat := ((avg : Int) + ((level : Int) - (avg : Int)) / 8).toNat

/-- Outstanding is lowered by the grant's payload, to no less than 0 (R107). -/
def lowerOutstanding (u : UnitNo) (g : GrantRecord) (s : State) : State :=
  modU u (fun r => { r with outstanding := r.outstanding - grantPayload g }) s

/-- A failed grant counts against the unit, or as interference when the last dark judgement was lit (R102); the 16th silent
one sends an ACTIVE record to LOST (R31). -/
def countFailure (u : UnitNo) (s : State) : State :=
  if s.lm.lastDark then { s with bm := { s.bm with interfered := satAdd 4294967295 s.bm.interfered 1 } }
  else
    let s1 := modU u (fun r => { r with silent := satAdd 16 r.silent 1 }) s
    if (getU u s1).state = .active ∧ (getU u s1).silent = 16 then enterLost u s1 else s1

/-- The effects of MISSING, ERRORED and WRONG_UNIT on the record (R99, R100, R106). -/
def failedOutcome (u : UnitNo) (g : GrantRecord) (s : State) : State :=
  if onTree (getU u s) then countFailure u (lowerOutstanding u g s)
  else if (getU u s).state = .retiring then lowerOutstanding u g s
  else s

/-- The effects of MISALIGNED on the record (R104 to R106). The streak saturates at 2, and a record in ACTIVE or LOST that
stands at 2 is ranged again. -/
def misalignedOutcome (u : UnitNo) (g : GrantRecord) (s : State) : State :=
  if onTree (getU u s) then
    let s1 := occur .misaligned (getU u s).serial
      (modU u (fun r => { r with streak := satAdd 2 r.streak 1 }) (lowerOutstanding u g s))
    if serves (getU u s1) && decide (2 ≤ (getU u s1).streak) then reRange u s1 else s1
  else if (getU u s).state = .retiring then lowerOutstanding u g s
  else s

/-- The data bytes of a VALID burst go to the backhaul as one upstream packet, if there are any (R22, R108). -/
def sendUpstream (u : UnitNo) (b : Burst) (s : State) : State :=
  if b.header.dlen.toNat = 0 then s
  else { s with tli := { s.tli with upstream := s.tli.upstream ++ [⟨u.val, b.payload.take b.header.dlen.toNat⟩] } }

/-- What a VALID burst writes into the record (R96, R97). -/
def validRecord (g : GrantRecord) (b : Burst) (r : UnitRecord) : UnitRecord :=
  { r with report := b.header.report.toNat, outstanding := r.outstanding - grantPayload g, silent := 0, streak := 0,
           level := levelStep r.level (meanLevel b.preamble) }

/-- A LOST record returns to ACTIVE (R33). -/
def returnFromLost (r : UnitRecord) : UnitRecord :=
  if r.state = .lost then { r with state := .active, lostHold := 0, poll := 8 } else r

/-- The effects of VALID on the record and the three hand-offs (R33, R96, R98, R106). R98 gives the hand-offs no order: that the
EC comes first, so that a REACH_EDGE notice stands before a COUNTER_SATURATED one, is the model's choice (log entry 14). -/
def validOutcome (u : UnitNo) (g : GrantRecord) (b : Burst) (s : State) : State :=
  if onTree (getU u s) then
    let s1 := modU u (fun r => returnFromLost (validRecord g b r)) s
    let s2 := driftStep u (burstDelta g.start b) s1
    sendUpstream u b (attributeBurst u b.header.dlen.toNat g.pc g.busy s2)
  else if (getU u s).state = .retiring then sendUpstream u b (lowerOutstanding u g s)
  else s

/-- An outcome acts on the record by its state (R95, R106); a WRONG_UNIT burst charges a tail event to the unit it names,
whatever the grant's record (R100, R113). -/
def applyOutcome (u : UnitNo) (g : GrantRecord) (found : Option Burst) (s : State) : State :=
  match outcomeOf g found, found with
  | .missing, _ => failedOutcome u g s
  | .errored, _ => failedOutcome u g s
  | .wrongUnit n, _ => chargeNamed n (failedOutcome u g s)
  | .misaligned, _ => misalignedOutcome u g s
  | .valid, some b => validOutcome u g b s
  | .valid, none => s

/-- BURST_CLASSIFY (R93, R94): the findings for the unit's grant in a held plan, handed over once. -/
def burstStep (n : Nat) (u : UnitNo) (found : Option Burst) (s : State) : State :=
  match findPlan n s with
  | none => s
  | some p =>
    match unitGrant u p with
    | none => s
    | some g =>
      if g.answered then s else applyOutcome u g found (modGrant n u (fun g => { g with answered := true }) s)

end Sys2Proof.Machine
end

