-- ==== Sys2Proof/Machine/Plan.lean ====
section
/-!
DEFINITION. The Grant Scheduler's round plan, stage by stage (chapter 4), and the load interval.
-/
namespace Sys2Proof.Machine

/-- Ring order from the service pointer (R78). -/
def ringFrom (p : UnitNo) : List UnitNo := allUnits.map (fun i => p + i)

/-! ### Stages 2 to 4 (R25, R74, R76, R77, R32) -/

/-- A staged profile becomes the profile, and credit is cut to the new Bmax (R25). -/
def applyStaged (r : UnitRecord) : UnitRecord :=
  match r.staged with
  | none => r
  | some p => { r with profile := p, staged := none, credit := min r.credit (bmax p) }

/-- An unhushed ACTIVE record gains its committed rate, up to Bmax (R74). -/
def addCredit (r : UnitRecord) : UnitRecord :=
  if r.state = .active ∧ r.hush = false then { r with credit := min (r.credit + crq r.profile) (bmax r.profile) } else r

/-- The poll countdown of an unhushed ACTIVE or LOST record is lowered (R77, R32). -/
def lowerPoll (r : UnitRecord) : UnitRecord :=
  if serves r ∧ r.hush = false then { r with poll := r.poll - 1 } else r

/-- The demand d = max(0, R − O) (R76). -/
def demand (r : UnitRecord) : Nat := r.report - r.outstanding

/-! ### Stages 5 to 7 -/

/-- What a plan gives one unit: whether it holds a grant, and its committed and excess payload. -/
structure Share where
  unit    : UnitNo
  record  : UnitRecord
  granted : Bool
  pc      : Nat
  pe      : Nat

/-- The committed payload of a record with `rem` grains left: c = min(d, floor(B / 256), PK), cut to what remains (R79). -/
def committedPayload (r : UnitRecord) (rem : Nat) : Nat :=
  let c := min (demand r) (min (r.credit / 256) (peak r.profile))
  if c = 0 then 0 else if c + 10 ≤ rem then c else if 11 ≤ rem then rem - 10 else 0

/-- The committed pass over records in ring order (R79, R80): the shares, and the remaining capacity. -/
def committedPass : List (UnitNo × UnitRecord) → Nat → List Share × Nat
  | [], rem => ([], rem)
  | (u, r) :: rest, rem =>
    let c := committedPayload r rem
    if 1 ≤ c then
      let out := committedPass rest (rem - (c + 10))
      (⟨u, r, true, c, 0⟩ :: out.1, out.2)
    else if r.poll = 0 ∧ 10 ≤ rem then
      let out := committedPass rest (rem - 10)
      (⟨u, r, true, 0, 0⟩ :: out.1, out.2)
    else
      let out := committedPass rest rem
      (⟨u, r, false, 0, 0⟩ :: out.1, out.2)

/-- The excess want e = min(d − c, PK − c) (R82). -/
def excessWant (h : Share) : Nat := min (demand h.record - h.pc) (peak h.record.profile - h.pc)

/-- The share's record is eligible for the excess pass (R82). -/
def excessEligible (h : Share) : Bool := decide (1 ≤ h.record.profile.w) && decide (1 ≤ excessWant h)

/-- ΣW over the eligible records (R81). -/
def weightSum (l : List Share) : Nat := ((l.filter excessEligible).map (fun h => h.record.profile.w)).sum

/-- The excess payload of one record, with `e` on offer, ΣW of `w` and `rem` grains left (R83). -/
def excessPayload (e w rem : Nat) (h : Share) : Nat :=
  if excessEligible h then
    let x := e * h.record.profile.w / w
    if h.granted then min x (min (excessWant h) rem) else min (x - 10) (min (excessWant h) (rem - 10))
  else 0

/-- The excess pass in ring order (R83). -/
def excessPass (e w : Nat) : List Share → Nat → List Share × Nat
  | [], rem => ([], rem)
  | h :: rest, rem =>
    let y := excessPayload e w rem h
    if 1 ≤ y then
      let out := excessPass e w rest (rem - (if h.granted then y else y + 10))
      ({ h with granted := true, pe := y } :: out.1, out.2)
    else
      let out := excessPass e w rest rem
      (h :: out.1, out.2)

/-- Stage 6 as a whole: E = floor(A′ × F / 256), and the pass runs when E and ΣW are at least 1 (R81). -/
def excessStage (f : Nat) (l : List Share) (rem : Nat) : List Share × Nat :=
  let e := rem * f / 256
  let w := weightSum l
  if 1 ≤ e ∧ 1 ≤ w then excessPass e w l rem else (l, rem)

/-- Stage 7 over the LOST records in ring order (R85): the polls given, and the remaining capacity. -/
def lostPolls : List (UnitNo × UnitRecord) → Nat → List UnitNo × Nat
  | [], rem => ([], rem)
  | (u, r) :: rest, rem =>
    if r.poll = 0 ∧ 10 ≤ rem then
      let out := lostPolls rest (rem - 10)
      (u :: out.1, out.2)
    else lostPolls rest rem

/-! ### Stage 8: layout and grant records (R86, R87) -/

/-- A grant record as a plan makes it. -/
def newGrant (unit : Nat) (kind : GrantKind) (start length pc pe : Nat) (busy : Bool) : GrantRecord :=
  { unit := unit, kind := kind, start := start, length := length, pc := pc, pe := pe, busy := busy, answered := false,
    guarded := false }

/-- The grants of ACTIVE records from grain `g` on, one after another (R86), with their kinds and busy flags (R87). -/
def layShares (f : Nat) : List Share → Nat → List GrantRecord × Nat
  | [], g => ([], g)
  | h :: rest, g =>
    if h.granted then
      let out := layShares f rest (g + 10 + h.pc + h.pe)
      (newGrant h.unit.val (if 1 ≤ h.pc + h.pe then .data else .reportOnly) g (10 + h.pc + h.pe) h.pc h.pe
          (decide (1 ≤ h.pe) && decide (f < 256)) :: out.1, out.2)
    else layShares f rest g

/-- The polls of LOST records from grain `g` on (R86). -/
def layPolls : List UnitNo → Nat → List GrantRecord
  | [], _ => []
  | u :: rest, g => newGrant u.val .reportOnly g 10 0 0 false :: layPolls rest (g + 10)

/-- The ranging windows' grants, back to back from grain `w` (R71). -/
def layRanging : List UnitNo → Nat → List GrantRecord
  | [], _ => []
  | u :: rest, w => newGrant u.val .ranging (w + 8) 12 0 0 false :: layRanging rest (w + 28)

/-- The discovery window's grant, if the plan holds one (R71). -/
def layDiscovery (c : ReachClass) (due : Bool) : List GrantRecord :=
  if due then [newGrant 64 .discovery (span c) (span c + 76) 0 0 false] else []

/-- The layout origin g0 (R71). -/
def layoutOrigin (c : ReachClass) (due : Bool) (ranged : List UnitNo) : Nat :=
  (if due then span c + 76 else 0) + 28 * ranged.length

/-- What a plan writes into the record of a share (R79, R87, R77). -/
def grantRecordTo (h : Share) (r : UnitRecord) : UnitRecord :=
  if h.granted then
    { r with credit := r.credit - 256 * h.pc, outstanding := satAdd 65535 r.outstanding (h.pc + h.pe), poll := 8 }
  else r

/-! ### The plan (R68, R69) -/

/-- Stages 5 to 7 and the layout for unit grants, from the records after stage 4: the grants, the shares and the LOST polls. -/
def unitGrants (g0 f : Nat) (p : UnitNo) (ut : Vector UnitRecord 64) : List GrantRecord × List Share × List UnitNo :=
  let ring := (ringFrom p).map (fun u => (u, ut.get u))
  let act := ring.filter (fun x => x.2.state == .active && !x.2.hush)
  let lost := ring.filter (fun x => x.2.state == .lost && !x.2.hush)
  let com := committedPass act (12484 - g0)
  let exc := excessStage f com.1 com.2
  let pol := lostPolls lost exc.2
  let lay := layShares f exc.1 g0
  (lay.1 ++ layPolls pol.1 lay.2, exc.1, pol.1)

/-- Stages 3 to 8 of a plan made in SERVING: the records after the plan, and the unit grants. -/
def serveUnits (g0 f : Nat) (p : UnitNo) (ut : Vector UnitRecord 64) : Vector UnitRecord 64 × List GrantRecord :=
  let ut1 := vmap (fun r => lowerPoll (addCredit r)) ut
  let out := unitGrants g0 f p ut1
  let ut2 := out.2.1.foldl (fun (v : Vector UnitRecord 64) (h : Share) => v.set h.unit (grantRecordTo h (v.get h.unit))) ut1
  (out.2.2.foldl (fun (v : Vector UnitRecord 64) (u : UnitNo) => v.set u { v.get u with poll := 64 }) ut2, out.1)

/-- The payload of a plan's grants (R89). -/
def planPayload (l : List GrantRecord) : Nat := (l.map (fun g => g.pc + g.pe)).sum

/-- The EC's count of plans since the last discovery window (R44). -/
def countDiscovery (due : Bool) (n : Nat) : Nat := if due then 0 else satAdd 1024 n 1

/-- Stage 9: the plan's payload joins the load interval and the service pointer advances (R89, R78). -/
def countPlan (l : List GrantRecord) (g : Grants) : Grants :=
  { g with intervalSum := g.intervalSum + planPayload l, intervalCount := g.intervalCount + 1, servicePtr := g.servicePtr + 1 }

/-- The records named for ranging have their attempt pending set (R60). -/
def markRanged (l : List UnitNo) (s : State) : State :=
  l.foldl (fun t u => modE u (fun e => { e with attemptPending := true }) t) s

/-- The plan of round `n`, made when its frame carries the orders `carried` (R68 to R71, R91): the state after it. Outside
SERVING it holds the dark window alone. The plan before it is kept beside it (R70). -/
def planRound (n : Nat) (carried : List PuOrder) (s : State) : State :=
  let due := discoveryDue s
  let ranged := rangingPick carried s
  let g0 := layoutOrigin s.sc.reach due ranged
  let staged := vmap applyStaged s.ut
  let served := if s.sc.phase = .serving then serveUnits g0 s.dv.factor s.gs.servicePtr staged else (staged, [])
  let grants := layDiscovery s.sc.reach due ++ layRanging ranged (if due then span s.sc.reach + 76 else 0) ++ served.2
  let s1 := markRanged ranged { s with ut := served.1, ec := { s.ec with sinceDiscovery := countDiscovery due s.ec.sinceDiscovery } }
  { s1 with gs := countPlan grants { s1.gs with plans := s1.gs.plans.drop (s1.gs.plans.length - 1) ++ [⟨n, grants, 0⟩] } }

/-- The grant entries of the plan just made, in the order of R5. -/
def planEntries (s : State) : List GrantEntry :=
  match s.gs.plans.getLast? with
  | some p => p.grants.map (fun g => ⟨g.unit, g.kind, g.start, g.length⟩)
  | none => []

/-! ### The load interval (R89, R90, R154, R181) -/

/-- The fields of a load notice, as their owners hold them (R181). -/
def loadFields (load : Nat) (s : State) : LoadFields :=
  { load := load, undeliverable := s.tli.undeliverable, interfered := s.bm.interfered, lineFaults := s.sbp.lineFaults,
    isolation := s.lm.iso.phase, active := (allUnits.filter (fun u => (getU u s).state == .active)).length }

/-- INTERVAL_CLOSE (R90): once the count has reached 64, the own load goes to the DV, and a load notice is queued. -/
def intervalStep (s : State) : State :=
  if s.gs.intervalCount = 64 then
    let load := s.gs.intervalSum / 64
    let s1 := closeLoads load { s with gs := { s.gs with intervalSum := 0, intervalCount := 0 } }
    offerNotice (.load (loadFields load s1)) s1
  else s

end Sys2Proof.Machine
end

