-- ==== Sys2Proof/Machine/Alarms.lean ====
section
/-!
DEFINITION. The Alarm Table's clearing and re-offer (chapter 10).
-/
namespace Sys2Proof.Machine

/-- A clear or a rotation of a raised record (R189). It clears a re-offer, also one that the last round-marker event has made due
and ALARM_REOFFER has not taken yet (log entry 5). -/
def clearRecord (a : AlarmRecord) : AlarmRecord :=
  match a.waiting with
  | x :: rest => { a with subject := some x, waiting := rest, count := 1, reoffer := .idle }
  | [] => { a with raised := false, subject := none, count := 0, reoffer := .idle }

/-- ALARM_CLEAR (R189): what the order does, and its outcome. A rotation offers the new subject's notice unless the class is
masked. -/
def alarmClearOrder (b : Byte) (s : State) : State × AnswerOutcome :=
  match alarmOfByte b with
  | none => (s, .badField)
  | some k =>
    if (getK k s).raised then
      let s1 := modK k clearRecord s
      if (getK k s1).raised && !masked k s1 then (offerNotice (.alarm k 1 (getK k s1).subject) s1, .done) else (s1, .done)
    else (s, .wrongState)

/-- A lost alarm notice is offered again, filled from the record as it then stands (R188). -/
def alarmReofferStep (k : AlarmKind) (s : State) : State :=
  if (getK k s).reoffer.isDue then
    let s1 := modK k (fun a => { a with reoffer := a.reoffer.made }) s
    offerNotice (.alarm k (getK k s1).count (getK k s1).subject) s1
  else s

end Sys2Proof.Machine
end

