-- ==== Sys2Proof/Machine/Start.lean ====
section
/-!
DEFINITION. The Start Controller (chapter 11): the phases, the settings, the restart and the reset.
-/
namespace Sys2Proof.Machine

/-! ### Settings (R193) -/

/-- Every field of a SETTINGS order lies in its range (R193). -/
def settingsOk (f : SettingsFields) : Bool :=
  decide (0 < f.sources.toNat) && decide (f.sources.toNat < 32768)
    && decide (f.tdark.toNat ≤ 1023)
    && decide (1 ≤ f.budget.toNat) && decide (f.budget.toNat ≤ 400000)
    && decide (16 ≤ f.interval.toNat) && decide (f.interval.toNat ≤ 1024)
    && decide (2 ≤ f.litCount.toNat) && decide (f.litCount.toNat ≤ 8)
    && decide (f.mask.toNat < 8)

/-- The settings that checked fields spell (9.8.7). -/
def settingsOf (f : SettingsFields) : Settings :=
  { sources := f.sources, tdark := f.tdark.toNat, budget := f.budget.toNat, interval := f.interval.toNat,
    litCount := f.litCount.toNat, maskSevere := f.mask.getLsbD 0, maskDegrading := f.mask.getLsbD 1,
    maskNotable := f.mask.getLsbD 2 }

/-- The settings take effect and lock, and F is recomputed with the new K (R193, R156). -/
def lockSettings (v : Settings) (s : State) : State := recomputeF { s with sc := { s.sc with settings := some v } }

/-- SETTINGS taken in ENLIST starts SERVING at that event (R192). -/
def serveFromEnlist (s : State) : State :=
  if s.sc.phase = .enlist then { s with sc := { s.sc with phase := .serving, enlistCount := 0 } } else s

/-- SETTINGS (R193): what the order does, and its outcome. -/
def settingsOrder (f : SettingsFields) (s : State) : State × AnswerOutcome :=
  if s.sc.settings.isSome then (s, .locked)
  else if !settingsOk f then (s, .badField)
  else (serveFromEnlist (lockSettings (settingsOf f) s), .done)

/-! ### Phases (R191, R192) -/

/-- LISTEN ends (R191): SERVING if settings were taken, and otherwise ENLIST with its count at 8,000. -/
def endListen (s : State) : State :=
  if s.sc.settings.isSome then { s with sc := { s.sc with listenCount := 0, phase := .serving } }
  else { s with sc := { s.sc with listenCount := 0, phase := .enlist, enlistCount := 8000 } }

/-- ENLIST ends without settings (R192): the defaults apply and lock, SETTINGS_DEFAULTED occurs, and the phase is SERVING. -/
def endEnlist (s : State) : State :=
  let s1 := lockSettings Settings.defaults s
  occur .settingsDefaulted none { s1 with sc := { s1.sc with enlistCount := 0, phase := .serving } }

/-- The SC's part of a round-marker event has been taken ahead of its frame (log entry 7). -/
def scTaken (s : State) : State := { s with sc := { s.sc with ticked := true } }

/-- LISTEN_END (R191): the count comes to 0 at the round-marker event at hand, before its frame is assembled. -/
def listenStep (s : State) : State :=
  if s.sc.phase = .listen ∧ s.sc.listenCount ≤ 1 then scTaken (endListen s) else s

/-- ENLIST_EXPIRY (R192): the count comes to 0 at the round-marker event at hand, before its frame is assembled. -/
def enlistStep (s : State) : State :=
  if s.sc.phase = .enlist ∧ s.sc.enlistCount ≤ 1 then scTaken (endEnlist s) else s

/-- The SC's counts at a round-marker event, before the frame is assembled (R191, R192). The first event of all lowers
nothing. -/
def scTick (s : State) : State :=
  if s.sc.ticked then { s with sc := { s.sc with ticked := false } }
  else match s.sc.phase with
    | .listen =>
      if s.tli.lastFrame.isNone then s
      else if s.sc.listenCount ≤ 1 then endListen s
      else { s with sc := { s.sc with listenCount := s.sc.listenCount - 1 } }
    | .enlist =>
      if s.sc.enlistCount ≤ 1 then endEnlist s
      else { s with sc := { s.sc with enlistCount := s.sc.enlistCount - 1 } }
    | .serving => s
    | .restarting => s

/-- A lost presence notice is offered again while the phase is LISTEN or ENLIST (R191). -/
def presenceReofferStep (s : State) : State :=
  if s.sc.presence.isDue then
    let s1 := { s with sc := { s.sc with presence := s.sc.presence.made } }
    if s.sc.phase = .listen ∨ s.sc.phase = .enlist then offerNotice (.presence s.sc.cause s.sc.reach) s1 else s1
  else s

/-! ### Restart (R194, R195) -/

/-- A restart begins (R194): the search ends, every record leaves service or is freed, and the phase is RESTARTING. R150 and
R194 give the records no order: that they are visited in unit-number order, each with the pacing that its closing calls for, is
the model's choice (log entry 14). -/
def beginRestart (s : State) : State :=
  let s1 := abortSearch { s with sc := { s.sc with phase := .restarting, restartEnds := false } }
  allUnits.foldl (fun t u => endService u t) s1

/-- RESTART (R194): what the order does, and its outcome. -/
def restartOrder (s : State) : State × AnswerOutcome :=
  if s.sc.phase = .serving then (beginRestart s, .done) else (s, .busy)

/-- The end test of a restart at a round-marker event: every record is FREE (R195). -/
def restartTest (s : State) : Bool :=
  s.sc.phase == .restarting && allUnits.all (fun u => (getU u s).state == .free)

/-- RESTART_END (R195): the end test of the last round-marker event held. The lists are emptied, cooling and drop pending are
cleared, a DROP_UNIT still to be offered is given up, and the phase is SERVING. -/
def restartEndStep (s : State) : State :=
  if s.sc.restartEnds then
    mapU (fun r => { r with cooling := 0, dropPending := false, dropWait := .idle })
      { s with
        ec := { s.ec with strangers := [], rangingQueue := [] }
        sc := { s.sc with phase := .serving, restartEnds := false } }
  else s

/-! ### Reset (R190, R196) -/

/-- RESET_RELEASE (R190, R191, R196): the straps are sampled, the cause is recorded, every block takes its At-reset values and
the presence notice is offered. -/
def resetReleaseStep (pins : Straps) (causes : ResetCauses) (s : State) : State :=
  State.released pins (ResetCause.first causes) s.pending s.pus s.freeIndex

/-- RESET_HELD (R196, R184): the part sends nothing while the reset is held, and the notice being sent stops in mid-byte. -/
def resetHeldStep (s : State) : State := { s with held := true, sbp := { s.sbp with slot := none } }

/-- While the reset is held the part takes nothing (R196; log entry 3): every other command answers with the state unchanged. -/
def unlessHeld (f : State → State) (s : State) : Host.Outcome State Fault Refusal := .next (if s.held then s else f s)

end Sys2Proof.Machine
end

