-- ==== Sys2Proof/Machine/Shelf.lean ====
section
/-!
DEFINITION. The Shelf Bus Port (chapter 9): the reception of notices and orders, the answers, and the transmit slot.
-/
namespace Sys2Proof.Machine

/-! ### Orders (R178 to R180) -/

/-- The notice is addressed to this station or to all stations (R173). -/
def addressed (dest : BusStation) (s : State) : Bool := decide (dest.val = 31) || decide (dest.val = s.sc.station.val)

/-- An outcome without kind data (R180). -/
def plainData (r : State × AnswerOutcome) : State × AnswerOutcome × KindData := (r.1, r.2, .none)

/-- BAND (R136): what the order does, and its outcome. -/
def bandOrder (b : Byte) (s : State) : State × AnswerOutcome :=
  if h : b.toNat < 4 then ({ s with ucb := { s.ucb with band := ⟨b.toNat, h⟩ } }, .done) else (s, .badField)

/-- TAKE (R141, R142): what the order does, its outcome, and the counts of its answer. -/
def takeOrder (s : State) : State × AnswerOutcome × KindData :=
  (takeAll s, .done, .take (allUnits.filter (takesNow s)).length (allUnits.filter (skipsNow s)).length)

/-- The owner of the order's kind acts (step 4 of R179). -/
def ownerActs (o : Order) (s : State) : State × AnswerOutcome × KindData :=
  match o with
  | .settings f => plainData (settingsOrder f s)
  | .permit x c => plainData (permitOrder x c s)
  | .withdraw x => plainData (withdrawOrder x s)
  | .revoke x => plainData (revokeOrder x s)
  | .profile x c => plainData (profileOrder x c s)
  | .band b => plainData (bandOrder b s)
  | .take => takeOrder s
  | .alarmClear k => plainData (alarmClearOrder k s)
  | .unbar x => unbarOrder x s
  | .restart => plainData (restartOrder s)
  | .malformed _ => (s, .badField, .none)

/-- The kinds that reach their owner in LISTEN and ENLIST (step 2 of R179). -/
def beforeServing : Order → Bool
  | .settings _ => true
  | .restart => true
  | _ => false

/-- The kinds that reach their owner in RESTARTING (step 3 of R179). -/
def whileRestarting : Order → Bool
  | .take => true
  | .alarmClear _ => true
  | .settings _ => true
  | _ => false

/-- The order has an unknown kind or a wrong length (step 1 of R179). -/
def isMalformed : Order → Bool
  | .malformed _ => true
  | _ => false

/-- The steps of R179 on an order that has passed the filter. -/
def orderEffect (o : Order) (s : State) : State × AnswerOutcome × KindData :=
  if isMalformed o then (s, .badField, .none)
  else match s.sc.phase with
    | .listen => if beforeServing o then ownerActs o s else (s, .notReady, .none)
    | .enlist => if beforeServing o then ownerActs o s else (s, .notReady, .none)
    | .serving => ownerActs o s
    | .restarting => if whileRestarting o then ownerActs o s else (s, .busy, .none)

/-- The answer to an order, as the state after it stands (R180). -/
def answerTo (h : OrderHead) (kind : Byte) (out : AnswerOutcome) (data : KindData) (s : State) : NoticeBody :=
  .answer { dest := h.sender, tag := h.tag, kind := kind, outcome := out, recvErr := s.sbp.recvErrors, refused := s.sbp.refused,
            phase := s.sc.phase, data := data }

/-- An order is received (R173, R178 to R180): one for another station is ignored; one from outside the order-source set is
counted; any other has its effect, and is answered unless it went to all stations. -/
def receiveOrder (h : OrderHead) (o : Order) (s : State) : State :=
  if !addressed h.dest s then s
  else if !sourceAllowed h.sender s then { s with sbp := { s.sbp with refused := satAdd 65535 s.sbp.refused 1 } }
  else
    let r := orderEffect o s
    if h.dest.val = 31 then r.1 else offerNotice (answerTo h o.kindByte r.2.1 r.2.2 r.1) r.1

/-! ### Notices (R173, R174) -/

/-- The byte of an order body at place `i`; one that was never received is a free value (log entry 4). -/
def orderByte (s : State) (body : List Byte) (i : Nat) : Byte := body.getD i (Config.absentOrderByte s.freeIndex i)

/-- The tag of an order body (9.8.2). -/
def orderTag (s : State) (body : List Byte) : BitVec 16 :=
  BitVec.ofNat 16 (beNat [orderByte s body 1, orderByte s body 2])

/-- The order that a body spells: one shorter than three bytes has a wrong length, whatever its kind (R179). -/
def orderIn (s : State) (body : List Byte) : Order :=
  if body.length < 3 then .malformed (orderByte s body 0) else orderOf (orderByte s body 0) (body.drop 3)

/-- A body shorter than three bytes uses up one free value. -/
def spendFree (body : List Byte) (s : State) : State :=
  if body.length < 3 then { s with freeIndex := s.freeIndex + 1 } else s

/-- The kind byte of a claim notice, handed to the DV by kind; another value is discarded (R152, R158, R159). -/
def claimBody (h : NoticeHead) (body : List Byte) (s : State) : State :=
  let x := serialAt body
  let level := BitVec.ofNat 16 (fieldAt 8 2 body)
  match (byteAt 10 body).toNat with
  | 1 => claimStep h x level .claiming s
  | 2 => claimStep h x level .held s
  | 3 => releasedStep h x level s
  | _ => s

/-- The fields of a load notice's body (9.8.3). -/
def loadBodyOf (body : List Byte) : LoadBody :=
  { load := BitVec.ofNat 16 (fieldAt 0 2 body), undeliverable := BitVec.ofNat 32 (fieldAt 2 4 body),
    interfered := BitVec.ofNat 32 (fieldAt 6 4 body), lineFaults := BitVec.ofNat 16 (fieldAt 10 2 body),
    isolation := byteAt 12 body, active := byteAt 13 body }

/-- A whole notice goes to its owner by class (R174). -/
def dispatchNotice (cls : Nat) (h : NoticeHead) (body : List Byte) (s : State) : State :=
  match cls with
  | 1 =>
    if addressed h.dest s then receiveOrder ⟨h.sender, h.dest, orderTag s body⟩ (orderIn s body) (spendFree body s) else s
  | 3 => claimBody h body s
  | 4 => barStep h (serialAt body) (byteAt 8 body) s
  | 5 => loadStep h (loadBodyOf body) s
  | 7 => presenceStep h s
  | _ => s

/-- What a notice heard from its start does (R173, R174). -/
def hearStep (framed : Bool) (bytes : List Byte) (s : State) : State :=
  match hearNotice framed bytes with
  | .faulty => { s with sbp := { s.sbp with recvErrors := satAdd 65535 s.sbp.recvErrors 1 } }
  | .elsewhere => s
  | .whole cls h body => dispatchNotice cls h body s

/-- The SBP has heard the line quiet since reset release, with `recessive` bit times counted now (R169). -/
def quietHeard (recessive : Nat) (s : State) : Bool := s.sbp.heardQuiet || decide (12 ≤ recessive)

/-- The count of recessive bit times stands at `count` (R169). -/
def lineAt (count : Nat) (heard : Bool) (s : State) : State :=
  { s with sbp := { s.sbp with quiet := min 12 count, heardQuiet := heard } }

/-- The notice that is being sent. -/
def sendingNotice (s : State) : Option Notice :=
  match s.sbp.slot with
  | some sl => if sl.sending then some sl.notice else none
  | none => none

/-- NOTICE_RECEIVED (R169, R173, R174): the notice's dominant bits restart the count, and it is received if the line has been
quiet since reset release. While the SBP is sending it receives nothing: what it then reads back is its own notice, which R170 and
R171 check and no block is handed. -/
def receiveStep (heard : Reception) (bytes : List Byte) (s : State) : State :=
  if (sendingNotice s).isSome then lineAt 0 s.sbp.heardQuiet s
  else if quietHeard heard.recessive s then hearStep heard.framed bytes (lineAt 0 true s) else lineAt 0 false s

/-! ### The transmit slot (R177) -/

/-- The notice enters the slot and starts: a usage notice that stands for its snapshot has its body fixed from it, and the
snapshot is on the line (R140, R144, R177). -/
def startNotice (n : Notice) (s : State) : State :=
  match n.body with
  | .usage u none =>
    modA u (fun a => { a with snapshot := a.snapshot.map (fun p => { p with notice := .onLine }) })
      { s with sbp := { s.sbp with slot := some ⟨{ n with body := .usage u (usageBody u s) }, true⟩ } }
  | _ => { s with sbp := { s.sbp with slot := some ⟨n, true⟩ } }

/-- What stands ready to start, sent from a quiet line: the slot's notice contends again, or the head of the outbox enters the
empty slot; its start bit restarts the count (R169, R177). -/
def startSending (s : State) : State :=
  match s.sbp.slot with
  | some sl => lineAt 0 true { s with sbp := { s.sbp with slot := some { sl with sending := true } } }
  | none =>
    match s.sbp.outbox with
    | [] => s
    | n :: rest => startNotice n (lineAt 0 true { s with sbp := { s.sbp with outbox := rest } })

/-- TRANSMIT_START (R169, R177): the SBP has counted `recessive` bit times, and at 12 a notice starts. -/
def transmitStep (recessive : Nat) (s : State) : State :=
  let s1 := lineAt recessive (quietHeard recessive s) s
  if recessive < 12 then s1 else startSending s1

/-- ARBITRATION_LOST (R170): the notice stays in the slot for the next quiet. -/
def arbitrationStep (s : State) : State :=
  { s with sbp := { s.sbp with slot := s.sbp.slot.map (fun sl => { sl with sending := false }) } }

/-- The sending of a record's claiming notice starts its claim settle (R52). -/
def claimingSent (u : UnitNo) (ref : Nat) (s : State) : State :=
  if (getU u s).state = .claiming ∧ (getU u s).settleStarted = false ∧ (getE u s).claimRef = some ref then
    modU u (fun r => { r with claimSettle := 80, settleStarted := true }) s
  else s

/-- A usage notice is reported sent (R146, R148). -/
def usageSent (b : UsageBody) (s : State) : State :=
  let s1 := oneOutLess s
  match usageMatch b s1 with
  | none => pace s1
  | some p =>
    if p.isFinal then pace (freeRetired b.unit s1)
    else
      let s2 := modA b.unit (fun a => { a with snapshot := none }) s1
      if p.closePending then pace (makeFinal b.unit s2) else pace s2

/-- What the report of a sent notice does to its producer (R177). -/
def reportSent (n : Notice) (s : State) : State :=
  match n.body with
  | .claim _ _ .claiming u => claimingSent u n.ref s
  | .usage _ (some b) => usageSent b s
  | _ => s

/-- NOTICE_SENT (R177). -/
def sentStep (s : State) : State :=
  match sendingNotice s with
  | none => s
  | some n => reportSent n { s with sbp := { s.sbp with slot := none } }

/-- What the report of a notice aborted on the line does to its producer (R171, R176). -/
def reportAborted (n : Notice) (s : State) : State :=
  match n.body with
  | .usage _ (some b) => usageAborted b s
  | _ => noteLost n s

/-- LINE_FAULT (R171). -/
def faultStep (s : State) : State :=
  match sendingNotice s with
  | none => s
  | some n =>
    reportAborted n { s with sbp := { s.sbp with slot := none, lineFaults := satAdd 65535 s.sbp.lineFaults 1 } }

/-- USAGE_PACING_RETRY (R145): pacing runs at a round-marker event that found an unqueued snapshot and fewer than four out. -/
def pacingStep (s : State) : State :=
  if s.ucb.paceDue then pace { s with ucb := { s.ucb with paceDue := false } } else s

end Sys2Proof.Machine
end

