-- ==== Sys2Proof/Machine/Premises.lean ====
section
/-!
DEFINITION. What a frame does at the premises units (1.7). The table of a state holds what governs each premises unit from the
grant map of the next frame on (R19).
-/
namespace Sys2Proof.Machine

/-- The premises unit drops its unit number and EqD (R19). -/
def puDrop (p : PuState) : PuState := { p with unit := none, eqd := none }

/-- An ASSIGN at a premises unit (R19): the one it names takes the number and the EqD, unless a firm hush makes it ignore the
order; another that holds the number drops it. -/
def puAssign (own : Option Serial) (u : UnitNo) (x : Serial) (q : Nat) (p : PuState) : PuState :=
  if p.firmHush then p
  else if own = some x then { p with unit := some u, eqd := some q }
  else if p.unit = some u then puDrop p
  else p

/-- One order at the premises unit with serial `own` (R19). -/
def puOrder (own : Option Serial) (o : PuOrder) (p : PuState) : PuState :=
  match o with
  | .assign u x q => puAssign own u x q p
  | .eqd u q => if p.unit = some u then { p with eqd := some q } else p
  | .hushUnit u => if p.unit = some u then { p with softHush := true } else p
  | .speakUnit u => if p.unit = some u then { p with softHush := false } else p
  | .hushAll => { p with softHush := true }
  | .speakAll => { p with softHush := false }
  | .barSerial x => if own = some x then { puDrop p with firmHush := true } else p
  | .dropUnit u => if p.unit = some u then puDrop p else p

/-- The order is a BAR_SERIAL, the only kind that acts in a marked frame (R20). -/
def isBarOrder : PuOrder → Bool
  | .barSerial _ => true
  | _ => false

/-- A received frame at one premises unit (R19, R20): its orders act in the order they stand in it; a marked frame first
clears the number, the EqD and the soft hush, and only its BAR_SERIAL orders act. -/
def puFrame (own : Option Serial) (f : Frame) (p : PuState) : PuState :=
  if f.mark then
    (f.orders.filter isBarOrder).foldl (fun q o => puOrder own o q) { puDrop p with softHush := false }
  else f.orders.foldl (fun q o => puOrder own o q) p

/-! ### What a premises unit sends (R18) -/

/-- The premises unit may transmit: it holds neither hush (R18). -/
def puMaySpeak (p : PuState) : Bool := !p.softHush && !p.firmHush

/-- What a premises unit in condition `p` sends on one grant entry of a frame (R2, R18). -/
def puAnswers (p : PuState) (e : GrantEntry) : Option PuSend :=
  if !puMaySpeak p then none
  else match p.unit, p.eqd with
    | some u, some q => if e.kind ≠ .discovery ∧ e.unit = u.val then some (.burst u e (q + 32 * e.start)) else none
    | some _, none => none
    | none, _ => if e.kind = .discovery then some (.response e) else none

/-- What a premises unit in condition `p` sends on a frame it receives: nothing on a marked one (R20), and on another one burst
for each entry that is its own (R18), by the condition it held before the frame's orders (R19). -/
def puSends (f : Frame) (p : PuState) : List PuSend := if f.mark then [] else f.entries.filterMap (puAnswers p)

/-- A burst as a premises unit sends it: the bit after the downstream marker at which its guard begins, its length in grains, the
header, the payload and the word of the check grain (R14). -/
structure PuBurst where
  start   : Nat
  length  : Nat
  header  : BurstHeader
  payload : List Byte
  check   : BitVec 32
  deriving DecidableEq, Repr

/-- The transmitted light of a burst at the `i`-th bit from its origin: the two guard grains are dark, and from the preamble on
the laser is lit (R14, R18). -/
def PuBurst.laserOn (b : PuBurst) (i : Nat) : Bool := decide (64 ≤ i) && decide (i < 32 * b.length)

/-- The bytes of a burst from its origin on (R14): two grains of guard without light, four of preamble, ones and zeros in turn, the
delimiter, the header, the payload grains, and the check grain. -/
def PuBurst.bytes (b : PuBurst) : List Byte :=
  List.replicate 8 0x00 ++ List.replicate 16 0xAA ++ beBytes 4 Config.delimiter.toNat
    ++ headerBytes b.header ++ [b.header.check] ++ b.payload ++ beBytes 4 b.check.toNat

/-- A burst of these fields, with its header check and its burst check (R14). -/
def puBurst (start length unit kind report dlen spread : Nat) (payload : List Byte) : PuBurst :=
  let h : BurstHeader := { unit := BitVec.ofNat 8 unit, kind := BitVec.ofNat 8 kind, report := BitVec.ofNat 16 report,
                           dlen := BitVec.ofNat 16 dlen, spread := BitVec.ofNat 8 spread, check := 0 }
  let c := crcHeader (headerBytes h)
  { start := start, length := length, header := { h with check := c }, payload := payload,
    check := crcBurst (headerBytes h ++ [c] ++ payload) }

/-- The data bytes that the premises unit sends in a payload of `k` grains: no more than it has waiting and than fit (R18). -/
def puData (draw : Nat) (x : Serial) (k : Nat) : List Byte := (Config.puWaiting draw x).take (min (Config.puTaken draw x) (4 * k))

/-- The data bytes of a payload of `k` grains, and padding beyond them (R18). -/
def puPayload (draw : Nat) (x : Serial) (k : Nat) : List Byte :=
  puData draw x k ++ (List.range (4 * k - (puData draw x k).length)).map (Config.puPadding draw x)

/-- The report in the header of a burst with `k` payload grains: the grains of data still waiting behind the burst's own, 65,535
when there are more (R14; that the burst's own data are not counted is log entry 24). -/
def puReport (draw : Nat) (x : Serial) (k : Nat) : Nat :=
  min 65535 (((Config.puWaiting draw x).length - (puData draw x k).length + 3) / 4)

/-- The burst that the premises unit with serial `x` transmits (R3, R14, R18): of the kind and length its entry states, a ranging
burst with eight bytes of value 90, a response with the serial and the spread that also decides its start. -/
def puBurstOf (draw : Nat) (x : Serial) : PuSend → PuBurst
  | .burst u e start =>
    match e.kind with
    | .data =>
      let k := e.length - 10
      puBurst start e.length u.val 1 (puReport draw x k) (puData draw x k).length 0 (puPayload draw x k)
    | .reportOnly => puBurst start e.length u.val 2 (puReport draw x 0) 0 0 []
    | .ranging => puBurst start e.length u.val 3 0 8 0 (List.replicate 8 90)
    | .discovery => puBurst start e.length u.val 4 0 8 0 []
  | .response e =>
    let spread := (Config.puSpread draw x).val
    puBurst (32 * (e.start + spread)) 12 64 4 0 8 spread (beBytes 8 x.toNat)

/-! ### The table -/

/-- The premises unit with serial `x` has its own line in the table. -/
def puList (x : Serial) (t : PuTable) : PuTable :=
  if t.listed.any (fun e => e.serial == x) then t else { t with listed := t.listed ++ [⟨x, t.others, t.othersSend⟩] }

/-- The serial an order names, which sets one premises unit apart from the others. -/
def orderSerial : PuOrder → Option Serial
  | .assign _ x _ => some x
  | .barSerial x => some x
  | _ => none

/-- A frame at one listed premises unit (R18 to R20): it answers the entries by what it held, and then the orders act. One whose
frame check failed keeps what it held and transmits nothing. -/
def puHears (f : Frame) (missed : List Serial) (e : PuEntry) : PuEntry :=
  if missed.contains e.serial then { e with sends := [] }
  else { e with state := puFrame (some e.serial) f e.state, sends := puSends f e.state }

/-- A frame reaches the premises units: all act on it but those in `missed`, whose frame check failed (R20). -/
def puReceive (f : Frame) (missed : List Serial) (t : PuTable) : PuTable :=
  let t1 := (f.orders.filterMap orderSerial ++ missed).foldl (fun t x => puList x t) t
  { listed := t1.listed.map (puHears f missed), others := puFrame none f t1.others, othersSend := puSends f t1.others,
    draw := t1.draw + 1 }

/-- The premises unit with serial `x` loses its power: a firm hush ends (R19), it sends nothing more, and with the power goes
what it had taken from the part (log entry 20). -/
def puPowerDown (x : Serial) (t : PuTable) : PuTable :=
  let t1 := puList x t
  { t1 with listed := t1.listed.map (fun e =>
      if e.serial = x then { e with state := { puDrop e.state with firmHush := false }, sends := [] } else e) }

/-- The line of the premises unit with serial `x`. -/
def puLine (x : Serial) (t : PuTable) : PuEntry :=
  match t.listed.find? (fun e => e.serial == x) with
  | some e => e
  | none => ⟨x, t.others, t.othersSend⟩

/-- The state that governs the premises unit with serial `x`. -/
def puState (x : Serial) (t : PuTable) : PuState := (puLine x t).state

/-- The bursts that the premises unit with serial `x` transmits on the entries of the last frame (R18). -/
def puBursts (x : Serial) (t : PuTable) : List PuBurst := (puLine x t).sends.map (puBurstOf t.draw x)

end Sys2Proof.Machine
end

