-- ==== Sys2Proof/Machine/Round.lean ====
section
/-!
DEFINITION. The round-marker event (R1): the due events of the event before that no command has taken yet, the countdowns, and
the assembly of the frame with its plan, its orders and its packets.
-/
namespace Sys2Proof.Machine

/-! ### What the last round-marker event left due (log entry 5) -/

/-- Every unit's due events: settle, LOST hold, claim refresh, and the re-offers of its ASSIGN and its DROP_UNIT. -/
def flushUnit (u : UnitNo) (s : State) : State :=
  dropUnitStep u (assignStep u (refreshStep u (lostHoldStep u (settleStep u s))))

/-- The due events of the lists: strangers and claims that have run out, lost claims and bars, waiting BAR_SERIALs. -/
def flushLists (s : State) : State :=
  let s1 := s.ec.strangers.foldl (fun t e => strangerStep e.serial t) s
  let s2 := s1.dv.claims.foldl (fun t e => claimExpiryStep e.serial e.peer t) s1
  let s3 := (s2.ec.lostClaims.filter (·.due)).foldl (fun t c => claimReofferStep c.serial t) s2
  let s4 := (s3.dv.lostBars.filter (·.due)).foldl (fun t b => barReofferStep b.serial t) s3
  (s4.lm.barWait.filter (·.due)).foldl (fun t b => barSerialStep b.serial t) s4

/-- Hush flags due to be cleared are cleared (R119). -/
def hushDueStep (s : State) : State := if s.lm.iso.clearings.any (·.due) then hushClearStep s else s

/-- Every event that a round-marker event made due and no command has taken comes about, in one fixed order. -/
def flushDue (s : State) : State :=
  let s1 := stepReofferStep (hushDueStep (holdoffStep (restartEndStep (intervalStep s))))
  let s2 := flushLists (allUnits.foldl (fun t u => flushUnit u t) s1)
  pacingStep (alarmKinds.foldl (fun t k => alarmReofferStep k t) (presenceReofferStep s2))

/-! ### Counts (R28, R30, R43, R129, R160) -/

/-- The countdowns of a record at a round-marker event (R28, R30). -/
def tickRecord (r : UnitRecord) : UnitRecord :=
  { r with
    claimSettle := if r.state = .claiming ∧ r.settleStarted then r.claimSettle - 1 else r.claimSettle
    lostHold := if r.state = .lost then r.lostHold - 1 else r.lostHold
    claimRefresh := if serves r then r.claimRefresh - 1 else r.claimRefresh
    cooling := if r.state = .free ∧ r.dropPending = false then r.cooling - 1 else r.cooling
    dropWait := r.dropWait.tick }

/-- The EC's ages and re-offers at a round-marker event (R43, R51, R59). -/
def tickEc (e : Enrolment) : Enrolment :=
  { e with
    strangers := e.strangers.map (fun x => { x with age := satAdd 240000 x.age 1 })
    units := vmap (fun x => { x with assignWait := x.assignWait.tick }) e.units
    lostClaims := e.lostClaims.map (fun c => { c with due := true }) }

/-- The isolation machine at a round-marker event (R119, R129). -/
def tickIso (m : Isolation) : Isolation :=
  { m with
    holdoff := if m.phase = .holdoff then m.holdoff - 1 else m.holdoff
    stepDue := decide (m.step = .waiting) || !m.closing.isEmpty
    clearings := m.clearings.map (fun c => { c with due := true }) }

/-- The DV's ages and re-offers at a round-marker event (R160, R163). -/
def tickDistrict (d : District) : District :=
  { d with
    claims := d.claims.map (fun c => { c with age := satAdd 16000 c.age 1 })
    lostBars := d.lostBars.map (fun b => { b with due := true }) }

/-- Every block that counts in rounds advances its counts, and every re-offer that waits for the event comes due (R1). -/
def tickCounts (s : State) : State :=
  { s with
    ut := vmap tickRecord s.ut
    ec := tickEc s.ec
    lm := { s.lm with iso := tickIso s.lm.iso, barWait := s.lm.barWait.map (fun b => { b with due := true }) }
    dv := tickDistrict s.dv
    alarms := { s.alarms with records := vmap (fun a => { a with reoffer := a.reoffer.tick }) s.alarms.records }
    sc := { s.sc with presence := s.sc.presence.tick } }

/-! ### Orders into the frame (R11, R13) -/

/-- The order is an ASSIGN, an EQD or a DROP_UNIT (R13). -/
def isPurged (o : PuOrder) : Bool := decide (2 ≤ orderGroup o)

/-- A removed DROP_UNIT clears its record's drop pending (R30). -/
def purgedOrder (o : PuOrder) (s : State) : State :=
  match o with
  | .dropUnit u => modU u (fun r => { r with dropPending := false }) s
  | _ => s

/-- At the first unmarked frame after a marked one the queued orders of groups 2 and 3 are removed (R13). -/
def purgeOrders (s : State) : State :=
  if !restartMark s && (s.tli.lastFrame.any (fun f => f.mark)) then
    (s.tli.queue.filter (fun q => isPurged q.order)).foldl (fun t q => purgedOrder q.order t)
      { s with tli := { s.tli with queue := s.tli.queue.filter (fun q => !isPurged q.order) } }
  else s

/-- An order has left the queue into frame `n`, and its producer is told (R11, R30, R59, R119). -/
def orderCarried (n : Nat) (s : State) (q : QueuedOrder) : State :=
  let s1 := match q.order with
    | .assign u _ _ => modE u (fun e => { e with lastCarriage := some n }) s
    | .eqd u _ => modE u (fun e => { e with lastCarriage := some n }) s
    | .dropUnit u => modU u (fun r => { r with dropPending := false }) s
    | _ => s
  match q.mark with
  | .plain => s1
  | .stepEnd => stepCarried n s1
  | .closingEnd c => closingCarried n c s1

/-- The orders of the frame: the first eight of the queue (R11). -/
def frameOrders (s : State) : List QueuedOrder := s.tli.queue.take 8

/-- The orders of frame `n` leave the queue, one after another; a step without orders counts as carried (R11, R119). -/
def carryOrders (n : Nat) (s : State) : State :=
  let s1 := (frameOrders s).foldl (orderCarried n) { s with tli := { s.tli with queue := s.tli.queue.drop 8 } }
  if s1.lm.iso.step = .emptied then stepCarried n s1 else s1

/-- The correction hold of every record with no EQD left in the queue is lowered (R67). -/
def lowerHolds (s : State) : State :=
  allUnits.foldl (fun t u =>
    if eqdQueued u t then t else modU u (fun r => { r with corrHold := r.corrHold - 1 }) t) s

/-! ### Packets (R21, R138) -/

/-- The packet area that the entries and orders of a frame leave (R5). -/
def packetArea (entries : List GrantEntry) (orders : List PuOrder) : Nat :=
  100000 - 5 - 6 * entries.length - (orders.map (fun o => o.bytes.length)).sum - 4

/-- The head packet is discarded: too long, or its tag names no ACTIVE record (R21). -/
def discardsPacket (p : Packet) (s : State) : Bool :=
  decide (9600 < p.data.length)
    || (match unitOf p.tag with
        | some u => (getU u s).state != .active
        | none => true)

/-- A packet is discarded and counted (R21). -/
def countDiscard (s : State) : State :=
  { s with tli := { s.tli with undeliverable := satAdd 4294967295 s.tli.undeliverable 1 } }

/-- A placed packet's bytes go to the unit's down counter of the current band (R21, R138). -/
def countPlaced (p : Packet) (s : State) : State :=
  match unitOf p.tag with
  | some u => countBytes u (attributeDown s.ucb.band p.data.length) s
  | none => s

/-- The stream and the hold-off after the framer has done with it (R21). -/
def leaveStream (rest : List Packet) (wait : Bool) (s : State) : State :=
  { s with tli := { s.tli with stream := rest, holdOff := wait } }

/-- The framer takes packets from the head of the stream into a packet area of `room` bytes (R21): the packets placed, and the
state after. A packet that waited at the head for room is tested again when the next frame takes it, so it is discarded if its
record has left ACTIVE since: R21 tests it "when it reaches the head", R109 drops its packets from frame n + 1 on, and the model
takes R109 (log entry 25). -/
def framePackets : Nat → List Packet → State → List Packet × State
  | _, [], s => ([], leaveStream [] false s)
  | room, p :: rest, s =>
    if discardsPacket p s then framePackets room rest (countDiscard s)
    else if p.data.length + 3 ≤ room then
      let out := framePackets (room - (p.data.length + 3)) rest (countPlaced p s)
      (p :: out.1, out.2)
    else ([], leaveStream (p :: rest) true s)

/-! ### The frame (R1, R5) -/

/-- The frame of the round, from the state with its orders carried and its plan made. -/
def finishFrame (n : Nat) (mark : Bool) (orders : List PuOrder) (missed : List Serial) (s : State) : State :=
  let out := framePackets (packetArea (planEntries s) orders) s.tli.stream s
  let f : Frame := { round := n, mark := mark, entries := planEntries s, orders := orders, packets := out.1 }
  { out.2 with
    tli := { out.2.tli with lastFrame := some f, nextRound := wrap16 n }
    pus := puReceive f missed out.2.pus }

/-- Frame `n` is assembled and sent (R5, R6, R11, R13, R21, R68). -/
def assembleFrame (missed : List Serial) (s : State) : State :=
  let n := s.tli.nextRound
  let s1 := purgeOrders s
  let orders := (frameOrders s1).map (·.order)
  finishFrame n (restartMark s) orders missed (planRound n orders (lowerHolds (carryOrders n s1)))

/-- What stands at the end of the round-marker event: a step that waited on a carriage is offered, and the tests of R195 and
R145 are made. -/
def latchTests (s : State) : State :=
  { s with
    sc := { s.sc with restartEnds := restartTest s }
    ucb := { s.ucb with paceDue := decide (s.ucb.out < 4) && allUnits.any (fun u => unqueued (getA u s)) } }

/-- ROUND_MARKER (R1). The phases move first: a presence notice whose re-offer falls at the very event that leads to SERVING is not
offered again (log entry 7). -/
def roundStep (missed : List Serial) (s : State) : State :=
  latchTests (restepAfter (assembleFrame missed (tickCounts (scTick (flushDue s)))))

/-! ### The traffic port's input (R21) -/

/-- DOWNSTREAM_PACKET_ARRIVAL (R21): the packet joins the stream, unless the port holds the backhaul off. -/
def packetStep (tag : Nat) (data : List Byte) (s : State) : State :=
  if s.tli.holdOff then s else { s with tli := { s.tli with stream := s.tli.stream ++ [⟨tag, data⟩] } }

end Sys2Proof.Machine
end

