-- ==== Sys2Proof/Machine/BusCommands.lean ====
section
/-!
DEFINITION. The meanings of the commands of the shelf bus: received notices, peer notices, the transmit slot and the re-offers
(chapters 7 to 10).
-/
namespace Sys2Proof.Machine

/-- NOTICE_RECEIVED (R173). -/
def execNoticeReceived (heard : Reception) (bytes : List Byte) (s : State) : Host.Outcome State Fault Refusal :=
  unlessHeld (receiveStep heard bytes) s

/-- CLAIM_NOTICE (R158). -/
def execClaimNotice (head : NoticeHead) (serial : Serial) (level : BitVec 16) (kind : StoredClaim)
    (s : State) : Host.Outcome State Fault Refusal :=
  unlessHeld (claimStep head serial level kind) s

/-- RELEASED_CLAIM_NOTICE (R159). -/
def execReleasedClaimNotice (head : NoticeHead) (serial : Serial) (level : BitVec 16)
    (s : State) : Host.Outcome State Fault Refusal :=
  unlessHeld (releasedStep head serial level) s

/-- CLAIM_ENTRY_EXPIRY (R160). -/
def execClaimEntryExpiry (serial : Serial) (peer : TreeStation) (s : State) : Host.Outcome State Fault Refusal :=
  unlessHeld (claimExpiryStep serial peer) s

/-- BAR_NOTICE (R164). -/
def execBarNotice (head : NoticeHead) (serial : Serial) (reason : Byte) (s : State) : Host.Outcome State Fault Refusal :=
  unlessHeld (barStep head serial reason) s

/-- BAR_REOFFER (R163). -/
def execBarReoffer (serial : Serial) (s : State) : Host.Outcome State Fault Refusal :=
  unlessHeld (barReofferStep serial) s

/-- LOAD_NOTICE (R155). -/
def execLoadNotice (head : NoticeHead) (body : LoadBody) (s : State) : Host.Outcome State Fault Refusal :=
  unlessHeld (loadStep head body) s

/-- LOAD_ENTRY_AGE_OUT (R154). -/
def execLoadEntryAgeOut (peer : TreeStation) (s : State) : Host.Outcome State Fault Refusal :=
  unlessHeld (loadAgeOutStep peer) s

/-- PRESENCE_NOTICE (R167): the cause and the reach class do not change what the DV does. -/
def execPresenceNotice (head : NoticeHead) (_cause _reach : Byte) (s : State) : Host.Outcome State Fault Refusal :=
  unlessHeld (presenceStep head) s

/-- TRANSMIT_START (R177). -/
def execTransmitStart (recessive : Nat) (s : State) : Host.Outcome State Fault Refusal :=
  unlessHeld (transmitStep recessive) s

/-- ARBITRATION_LOST (R170). -/
def execArbitrationLost (s : State) : Host.Outcome State Fault Refusal :=
  unlessHeld arbitrationStep s

/-- LINE_FAULT (R171). -/
def execLineFault (s : State) : Host.Outcome State Fault Refusal :=
  unlessHeld faultStep s

/-- NOTICE_SENT (R177). -/
def execNoticeSent (s : State) : Host.Outcome State Fault Refusal :=
  unlessHeld sentStep s

/-- USAGE_PACING_RETRY (R145). -/
def execUsagePacingRetry (s : State) : Host.Outcome State Fault Refusal :=
  unlessHeld pacingStep s

/-- ALARM_REOFFER (R188). -/
def execAlarmReoffer (kind : AlarmKind) (s : State) : Host.Outcome State Fault Refusal :=
  unlessHeld (alarmReofferStep kind) s

end Sys2Proof.Machine
end

