-- ==== Sys2Proof/Machine/OrderCommands.lean ====
section
/-!
DEFINITION. The meanings of the order commands (R178 to R180): each order goes the one way of `receiveOrder`.
-/
namespace Sys2Proof.Machine

/-- ORDER_UNKNOWN_KIND (R179). -/
def execOrderUnknownKind (head : OrderHead) (kind : Byte) (s : State) : Host.Outcome State Fault Refusal :=
  unlessHeld (receiveOrder head (.malformed kind)) s

/-- SETTINGS (R193). -/
def execSettings (head : OrderHead) (fields : SettingsFields) (s : State) : Host.Outcome State Fault Refusal :=
  unlessHeld (receiveOrder head (.settings fields)) s

/-- PERMIT (R41). -/
def execPermit (head : OrderHead) (serial : Serial) (codes : ProfileCodes) (s : State) : Host.Outcome State Fault Refusal :=
  unlessHeld (receiveOrder head (.permit serial codes)) s

/-- WITHDRAW (R42). -/
def execWithdraw (head : OrderHead) (serial : Serial) (s : State) : Host.Outcome State Fault Refusal :=
  unlessHeld (receiveOrder head (.withdraw serial)) s

/-- REVOKE (R38). -/
def execRevoke (head : OrderHead) (serial : Serial) (s : State) : Host.Outcome State Fault Refusal :=
  unlessHeld (receiveOrder head (.revoke serial)) s

/-- PROFILE (R39). -/
def execProfile (head : OrderHead) (serial : Serial) (codes : ProfileCodes) (s : State) : Host.Outcome State Fault Refusal :=
  unlessHeld (receiveOrder head (.profile serial codes)) s

/-- BAND (R136). -/
def execBand (head : OrderHead) (code : Byte) (s : State) : Host.Outcome State Fault Refusal :=
  unlessHeld (receiveOrder head (.band code)) s

/-- TAKE (R141). -/
def execTake (head : OrderHead) (s : State) : Host.Outcome State Fault Refusal :=
  unlessHeld (receiveOrder head .take) s

/-- ALARM_CLEAR (R189). -/
def execAlarmClear (head : OrderHead) (kind : Byte) (s : State) : Host.Outcome State Fault Refusal :=
  unlessHeld (receiveOrder head (.alarmClear kind)) s

/-- UNBAR (R166). -/
def execUnbar (head : OrderHead) (serial : Serial) (s : State) : Host.Outcome State Fault Refusal :=
  unlessHeld (receiveOrder head (.unbar serial)) s

/-- RESTART (R194). -/
def execRestart (head : OrderHead) (s : State) : Host.Outcome State Fault Refusal :=
  unlessHeld (receiveOrder head .restart) s

end Sys2Proof.Machine
end

