-- ==== Sys2Proof/Machine/StartCommands.lean ====
section
/-!
DEFINITION. The meanings of the commands of the Start Controller and of power (chapter 11, R19).
-/
namespace Sys2Proof.Machine

/-- RESET_RELEASE (R196). -/
def execResetRelease (pins : Straps) (causes : ResetCauses) (s : State) : Host.Outcome State Fault Refusal :=
  .next (resetReleaseStep pins causes s)

/-- RESET_HELD (R196). -/
def execResetHeld (s : State) : Host.Outcome State Fault Refusal :=
  .next (resetHeldStep s)

/-- RESTART_END (R195). -/
def execRestartEnd (s : State) : Host.Outcome State Fault Refusal :=
  unlessHeld restartEndStep s

/-- PRESENCE_REOFFER (R191). -/
def execPresenceReoffer (s : State) : Host.Outcome State Fault Refusal :=
  unlessHeld presenceReofferStep s

/-- LISTEN_END (R191). -/
def execListenEnd (s : State) : Host.Outcome State Fault Refusal :=
  unlessHeld listenStep s

/-- ENLIST_EXPIRY (R192). -/
def execEnlistExpiry (s : State) : Host.Outcome State Fault Refusal :=
  unlessHeld enlistStep s

/-- PU_POWERED_DOWN (R19). -/
def execPuPoweredDown (serial : Serial) (s : State) : Host.Outcome State Fault Refusal :=
  .next { s with pus := puPowerDown serial s.pus }

end Sys2Proof.Machine
end

