-- ==== Sys2Proof/Machine/TreeCommands.lean ====
section
/-!
DEFINITION. The meanings of the commands of the tree line and its records (chapters 1 to 6).
-/
namespace Sys2Proof.Machine

/-- ROUND_MARKER (R1). -/
def execRoundMarker (missed : List Serial) (s : State) : Host.Outcome State Fault Refusal :=
  unlessHeld (roundStep missed) s

/-- INTERVAL_CLOSE (R90). -/
def execIntervalClose (s : State) : Host.Outcome State Fault Refusal :=
  unlessHeld intervalStep s

/-- DISCOVERY_RESPONSE (R45). -/
def execDiscoveryResponse (round : Nat) (burst : Burst) (s : State) : Host.Outcome State Fault Refusal :=
  unlessHeld (discoveryStep round burst) s

/-- STRANGER_AGE_OUT (R43). -/
def execStrangerAgeOut (serial : Serial) (s : State) : Host.Outcome State Fault Refusal :=
  unlessHeld (strangerStep serial) s

/-- BURST_CLASSIFY (R94). -/
def execBurstClassify (round : Nat) (unit : UnitNo) (found : Option Burst) (s : State) : Host.Outcome State Fault Refusal :=
  unlessHeld (burstStep round unit found) s

/-- RANGING_ATTEMPT (R61). -/
def execRangingAttempt (round : Nat) (unit : UnitNo) (found : Option Burst) (s : State) : Host.Outcome State Fault Refusal :=
  unlessHeld (rangingStep round unit found) s

/-- DARK_SAMPLE (R111). -/
def execDarkSample (round : Nat) (readings : List Nat) (s : State) : Host.Outcome State Fault Refusal :=
  unlessHeld (darkStep round readings) s

/-- HOLDOFF_EXPIRY (R129). -/
def execHoldoffExpiry (s : State) : Host.Outcome State Fault Refusal :=
  unlessHeld holdoffStep s

/-- STEP_REOFFER (R119). -/
def execStepReoffer (s : State) : Host.Outcome State Fault Refusal :=
  unlessHeld stepReofferStep s

/-- HUSH_FLAGS_CLEARED (R119). -/
def execHushFlagsCleared (s : State) : Host.Outcome State Fault Refusal :=
  unlessHeld hushClearStep s

/-- GUARD_SAMPLE (R112). -/
def execGuardSample (round : Nat) (unit : UnitNo) (readings : List Nat) (s : State) : Host.Outcome State Fault Refusal :=
  unlessHeld (guardStep round unit readings) s

/-- TAIL_SPAN_EXPIRY (R115). -/
def execTailSpanExpiry (unit : UnitNo) (s : State) : Host.Outcome State Fault Refusal :=
  unlessHeld (tailSpanStep unit) s

/-- BAR_SERIAL_REOFFER (R114). -/
def execBarSerialReoffer (serial : Serial) (s : State) : Host.Outcome State Fault Refusal :=
  unlessHeld (barSerialStep serial) s

/-- CLAIM_SETTLE_EXPIRY (R52). -/
def execClaimSettleExpiry (unit : UnitNo) (s : State) : Host.Outcome State Fault Refusal :=
  unlessHeld (settleStep unit) s

/-- ASSIGN_REOFFER (R59). -/
def execAssignReoffer (unit : UnitNo) (s : State) : Host.Outcome State Fault Refusal :=
  unlessHeld (assignStep unit) s

/-- LOST_HOLD_EXPIRY (R34). -/
def execLostHoldExpiry (unit : UnitNo) (s : State) : Host.Outcome State Fault Refusal :=
  unlessHeld (lostHoldStep unit) s

/-- DROP_UNIT_REOFFER (R30). -/
def execDropUnitReoffer (unit : UnitNo) (s : State) : Host.Outcome State Fault Refusal :=
  unlessHeld (dropUnitStep unit) s

/-- COOLING_EXPIRY (R30). -/
def execCoolingExpiry (unit : UnitNo) (s : State) : Host.Outcome State Fault Refusal :=
  unlessHeld (coolingStep unit) s

/-- CLAIM_REFRESH_EXPIRY (R161). -/
def execClaimRefreshExpiry (unit : UnitNo) (s : State) : Host.Outcome State Fault Refusal :=
  unlessHeld (refreshStep unit) s

/-- CLAIM_REOFFER (R51). -/
def execClaimReoffer (serial : Serial) (s : State) : Host.Outcome State Fault Refusal :=
  unlessHeld (claimReofferStep serial) s

/-- DOWNSTREAM_PACKET_ARRIVAL (R21). -/
def execDownstreamPacketArrival (tag : Nat) (data : List Byte) (s : State) : Host.Outcome State Fault Refusal :=
  unlessHeld (packetStep tag data) s

end Sys2Proof.Machine
end

