-- ==== Sys2Proof/Machine/Dispatch.lean ====
section
/-! DEFINITION. One arm for each command, in the order of spec/opcode_table.json. -/
namespace Sys2Proof.Machine

def exec (i : Instr) (s : State) : Host.Outcome State Fault Refusal :=
  match i with
  | .resetRelease pins causes => Sys2Proof.Machine.execResetRelease pins causes s
  | .roundMarker missed => Sys2Proof.Machine.execRoundMarker missed s
  | .intervalClose => Sys2Proof.Machine.execIntervalClose s
  | .loadEntryAgeOut peer => Sys2Proof.Machine.execLoadEntryAgeOut peer s
  | .discoveryResponse round burst => Sys2Proof.Machine.execDiscoveryResponse round burst s
  | .strangerAgeOut serial => Sys2Proof.Machine.execStrangerAgeOut serial s
  | .burstClassify round unit found => Sys2Proof.Machine.execBurstClassify round unit found s
  | .rangingAttempt round unit found => Sys2Proof.Machine.execRangingAttempt round unit found s
  | .darkSample round readings => Sys2Proof.Machine.execDarkSample round readings s
  | .holdoffExpiry => Sys2Proof.Machine.execHoldoffExpiry s
  | .stepReoffer => Sys2Proof.Machine.execStepReoffer s
  | .hushFlagsCleared => Sys2Proof.Machine.execHushFlagsCleared s
  | .guardSample round unit readings => Sys2Proof.Machine.execGuardSample round unit readings s
  | .tailSpanExpiry unit => Sys2Proof.Machine.execTailSpanExpiry unit s
  | .barSerialReoffer serial => Sys2Proof.Machine.execBarSerialReoffer serial s
  | .claimSettleExpiry unit => Sys2Proof.Machine.execClaimSettleExpiry unit s
  | .assignReoffer unit => Sys2Proof.Machine.execAssignReoffer unit s
  | .lostHoldExpiry unit => Sys2Proof.Machine.execLostHoldExpiry unit s
  | .dropUnitReoffer unit => Sys2Proof.Machine.execDropUnitReoffer unit s
  | .coolingExpiry unit => Sys2Proof.Machine.execCoolingExpiry unit s
  | .claimRefreshExpiry unit => Sys2Proof.Machine.execClaimRefreshExpiry unit s
  | .claimReoffer serial => Sys2Proof.Machine.execClaimReoffer serial s
  | .noticeReceived heard bytes => Sys2Proof.Machine.execNoticeReceived heard bytes s
  | .orderUnknownKind head kind => Sys2Proof.Machine.execOrderUnknownKind head kind s
  | .settings head fields => Sys2Proof.Machine.execSettings head fields s
  | .permit head serial codes => Sys2Proof.Machine.execPermit head serial codes s
  | .withdraw head serial => Sys2Proof.Machine.execWithdraw head serial s
  | .revoke head serial => Sys2Proof.Machine.execRevoke head serial s
  | .profile head serial codes => Sys2Proof.Machine.execProfile head serial codes s
  | .band head band => Sys2Proof.Machine.execBand head band s
  | .take head => Sys2Proof.Machine.execTake head s
  | .alarmClear head kind => Sys2Proof.Machine.execAlarmClear head kind s
  | .unbar head serial => Sys2Proof.Machine.execUnbar head serial s
  | .restart head => Sys2Proof.Machine.execRestart head s
  | .restartEnd => Sys2Proof.Machine.execRestartEnd s
  | .claimNotice head serial level kind => Sys2Proof.Machine.execClaimNotice head serial level kind s
  | .releasedClaimNotice head serial level => Sys2Proof.Machine.execReleasedClaimNotice head serial level s
  | .claimEntryExpiry serial peer => Sys2Proof.Machine.execClaimEntryExpiry serial peer s
  | .barNotice head serial reason => Sys2Proof.Machine.execBarNotice head serial reason s
  | .barReoffer serial => Sys2Proof.Machine.execBarReoffer serial s
  | .loadNotice head body => Sys2Proof.Machine.execLoadNotice head body s
  | .presenceNotice head cause reach => Sys2Proof.Machine.execPresenceNotice head cause reach s
  | .presenceReoffer => Sys2Proof.Machine.execPresenceReoffer s
  | .listenEnd => Sys2Proof.Machine.execListenEnd s
  | .enlistExpiry => Sys2Proof.Machine.execEnlistExpiry s
  | .transmitStart recessive => Sys2Proof.Machine.execTransmitStart recessive s
  | .arbitrationLost => Sys2Proof.Machine.execArbitrationLost s
  | .lineFault => Sys2Proof.Machine.execLineFault s
  | .noticeSent => Sys2Proof.Machine.execNoticeSent s
  | .usagePacingRetry => Sys2Proof.Machine.execUsagePacingRetry s
  | .alarmReoffer kind => Sys2Proof.Machine.execAlarmReoffer kind s
  | .downstreamPacketArrival tag data => Sys2Proof.Machine.execDownstreamPacketArrival tag data s
  | .resetHeld => Sys2Proof.Machine.execResetHeld s
  | .puPoweredDown serial => Sys2Proof.Machine.execPuPoweredDown serial s

end Sys2Proof.Machine
end

