-- ==== Sys2Proof/Safety.lean ====
section
/-!
DEFINITION. What counts as a safe run of the TC64, in the terms the statements use: what a report of a notice or an alarm may
touch, how an order is answered, and the laws that every step keeps.
-/
namespace Sys2Proof.Machine

/-! ### Frames -/

/-- The snapshot without its notice state, which says only where it stands with the shelf bus (R140). -/
def Snapshot.contents (p : Snapshot) : Snapshot := { p with notice := .unqueued }

/-- `t` differs from `s` in what the offering of notices and alarms touches and in nothing else: the outbox and its numbering,
the alarm records, what lost notices leave with their producers (R176), and the pacing of usage notices (R145). -/
structure OnlyReports (s t : State) : Prop where
  pending    : t.pending = s.pending
  held       : t.held = s.held
  sc         : t.sc = { s.sc with presence := t.sc.presence }
  tli        : t.tli = s.tli
  ut         : t.ut = s.ut
  ec         : t.ec = { s.ec with lostClaims := t.ec.lostClaims }
  gs         : t.gs = s.gs
  bm         : t.bm = s.bm
  lm         : t.lm = s.lm
  band       : t.ucb.band = s.ucb.band
  paceDue    : t.ucb.paceDue = s.ucb.paceDue
  live       : ∀ u, (getA u t).live = (getA u s).live
  takeNo     : ∀ u, (getA u t).takeNo = (getA u s).takeNo
  snapshot   : ∀ u, (getA u t).snapshot.map Snapshot.contents = (getA u s).snapshot.map Snapshot.contents
  onLine     : ∀ u, (getA u t).snapshot.any (fun p => p.notice == .onLine) = (getA u s).snapshot.any (fun p => p.notice == .onLine)
  dv         : t.dv = { s.dv with lostBars := t.dv.lostBars }
  quiet      : t.sbp.quiet = s.sbp.quiet
  heardQuiet : t.sbp.heardQuiet = s.sbp.heardQuiet
  slot       : t.sbp.slot = s.sbp.slot
  lineFaults : t.sbp.lineFaults = s.sbp.lineFaults
  recvErrors : t.sbp.recvErrors = s.sbp.recvErrors
  refused    : t.sbp.refused = s.sbp.refused
  pus        : t.pus = s.pus
  freeIndex  : t.freeIndex = s.freeIndex

/-- Every record but that of unit `u` is unchanged, and so is what the EC and the UCB hold beside it. -/
def OtherUnitsSame (u : UnitNo) (s t : State) : Prop :=
  ∀ v, v ≠ u → getU v t = getU v s ∧ (getA v t).live = (getA v s).live ∧ (getA v t).takeNo = (getA v s).takeNo

/-! ### Orders -/

/-- The order is for this station and its sender is an order source (R173, R178). -/
def Heeded (h : OrderHead) (s : State) : Prop :=
  (h.dest.val = 31 ∨ h.dest.val = s.sc.station.val)
    ∧ 16 ≤ h.sender.val ∧ h.sender.val ≤ 30
    ∧ (s.sc.settings.getD Settings.defaults).sources.getLsbD (h.sender.val - 16) = true

/-- The state once an order with effect `s` has been answered, which one addressed to all stations is not (R180). -/
def answered (h : OrderHead) (kind : Byte) (out : AnswerOutcome) (data : KindData) (s : State) : State :=
  if h.dest.val = 31 then s
  else offerNotice (.answer { dest := h.sender, tag := h.tag, kind := kind, outcome := out, recvErr := s.sbp.recvErrors,
                              refused := s.sbp.refused, phase := s.sc.phase, data := data }) s

/-- A heeded order reaches its owner: the part is SERVING and no reset is held (R179). -/
def Taken (h : OrderHead) (s : State) : Prop := s.held = false ∧ s.sc.phase = .serving ∧ Heeded h s

/-- The outbox has room for `k` notices more (R175). -/
def OutboxRoom (k : Nat) (s : State) : Prop := s.sbp.outbox.length + k ≤ 32

/-- The notice with this body stands in the outbox. -/
def InOutbox (b : NoticeBody) (s : State) : Prop := ∃ n ∈ s.sbp.outbox, n.body = b

/-- The command that an order is, when its head and its fields have been read (R178, R179). -/
def orderCommand (h : OrderHead) : Order → Instr
  | .settings f => .settings h f
  | .permit x c => .permit h x c
  | .withdraw x => .withdraw h x
  | .revoke x => .revoke h x
  | .profile x c => .profile h x c
  | .band b => .band h b
  | .take => .take h
  | .alarmClear k => .alarmClear h k
  | .unbar x => .unbar h x
  | .restart => .restart h
  | .malformed k => .orderUnknownKind h k

/-- The notice comes from peer `t` and is addressed to this station or to all (R152, R173). -/
def PeerNotice (h : NoticeHead) (t : TreeStation) (s : State) : Prop :=
  h.sender.val = t.val ∧ t ≠ s.sc.station ∧ (h.dest.val = 31 ∨ h.dest.val = s.sc.station.val)

/-! ### What happens to a record -/

/-- The queued orders of group 1, in their order (R8). -/
def urgentOrders (s : State) : List PuOrder := (s.tli.queue.filter (fun q => orderGroup q.order == 1)).map (·.order)

/-- Kind `k` has occurred once from `s` to `t` and is raised (R186). -/
def OccurredOnce (k : AlarmKind) (s t : State) : Prop :=
  (getK k t).raised = true ∧ (getK k t).count = min 65535 ((getK k s).count + 1)

/-- A search that goes on does so without unit `u` (R130). -/
def OutOfSearch (u : UnitNo) (t : State) : Prop :=
  t.lm.iso.phase = .confirm ∨ t.lm.iso.phase = .bisect →
    u ∉ t.lm.iso.hushedSet ∧ u ∉ t.lm.iso.cand ∧ u ∉ t.lm.iso.speak ∧ u ∉ t.lm.iso.hush

/-- `m` is the set `a` with the set `c` added counter by counter, saturating (R148). -/
def Merged (a c m : CounterSet) : Prop :=
  (∀ b : Band, m.up.get b = min 281474976710655 (a.up.get b + c.up.get b)
      ∧ m.down.get b = min 281474976710655 (a.down.get b + c.down.get b))
    ∧ m.excess = min 281474976710655 (a.excess + c.excess) ∧ m.busy = min 281474976710655 (a.busy + c.busy)
    ∧ (m.saturated = true ↔ a.saturated = true ∨ c.saturated = true
        ∨ (∃ b : Band, 281474976710655 < a.up.get b + c.up.get b ∨ 281474976710655 < a.down.get b + c.down.get b)
        ∨ 281474976710655 < a.excess + c.excess ∨ 281474976710655 < a.busy + c.busy)

/-- The live set of unit `u` in `s` has been added into its snapshot `p`, which has become final, and COUNTER_SATURATED is raised
when the flag went from clear to set (R148, second row). -/
def MergedFinal (u : UnitNo) (p : Snapshot) (s t : State) : Prop :=
  (getA u t).live = CounterSet.zero ∧ (getA u t).takeNo = (getA u s).takeNo
    ∧ ∃ q, (getA u t).snapshot = some q ∧ Merged p.counters (getA u s).live q.counters ∧ q.takeNo = p.takeNo
        ∧ q.isFinal = true ∧ q.disputed = (getU u s).disputed ∧ q.closePending = false
        ∧ (p.counters.saturated = false → q.counters.saturated = true → (getK .counterSaturated t).raised = true)

/-- The live set of unit `u` in `s` has moved to a new final snapshot, under the next take number (R148, first row). -/
def MovedFinal (u : UnitNo) (s t : State) : Prop :=
  (getA u t).live = CounterSet.zero ∧ (getA u t).takeNo = ((getA u s).takeNo + 1) % 65536
    ∧ ∃ q, (getA u t).snapshot = some q ∧ q.counters = (getA u s).live ∧ q.takeNo = (getA u t).takeNo
        ∧ q.isFinal = true ∧ q.disputed = (getU u s).disputed ∧ q.closePending = false

/-- The billing of unit `u` has been closed (R148), by the state of its snapshot: absent, present and not on the line, or on the
line, where the live set waits for the notice's outcome. -/
def BillingClosed (u : UnitNo) (s t : State) : Prop :=
  ((getA u s).snapshot = none → MovedFinal u s t)
    ∧ (∀ p, (getA u s).snapshot = some p → p.notice ≠ .onLine → MergedFinal u p s t)
    ∧ (∀ p, (getA u s).snapshot = some p → p.notice = .onLine →
        (getA u t).live = (getA u s).live ∧ (getA u t).takeNo = (getA u s).takeNo
          ∧ (getA u t).snapshot = some { p with closePending := true })

/-- Record `u` has entered RETIRING (R35): its delay, credit and history stand, it is out of the ranging queue and of the search,
no ASSIGN or EQD of the EC for it is queued, and its billing is closed (R148). -/
def LeftService (u : UnitNo) (s t : State) : Prop :=
  (getU u t).state = .retiring ∧ (getU u t).serial = (getU u s).serial ∧ (getU u t).eqd = (getU u s).eqd
    ∧ (getU u t).provEqd = none ∧ (getU u t).lostHold = 0 ∧ (getU u t).claimRefresh = 0 ∧ (getU u t).poll = 0
    ∧ u ∉ t.ec.rangingQueue
    ∧ (∀ q ∈ t.tli.queue, q.producer = .ec → isAssignFor u q.order = false ∧ isEqdFor u q.order = false)
    ∧ OutOfSearch u t ∧ BillingClosed u s t

/-- Record `u` has been freed without RETIRING (R37, R149): every field but those of a waiting DROP_UNIT as at reset, and
nothing left of its billing. From RANGING no ASSIGN of the EC for it stays queued, a DROP_UNIT stands in the queue or waits to be
offered again (R30), and a search goes on without it; from CLAIMING no order is offered. -/
def FreedDirectly (u : UnitNo) (s t : State) : Prop :=
  getU u t = { UnitRecord.blank with dropPending := (getU u t).dropPending, dropWait := (getU u t).dropWait }
    ∧ (getU u t).dropPending = decide ((getU u s).state = .ranging)
    ∧ getA u t = Account.blank ∧ u ∉ t.ec.rangingQueue ∧ (getE u t).attemptPending = false
    ∧ ((getU u s).state = .ranging → OutOfSearch u t
        ∧ (∀ q ∈ t.tli.queue, q.producer = .ec → isAssignFor u q.order = false)
        ∧ ((getU u t).dropWait = .idle ∧ ⟨.dropUnit u, .ec, .plain⟩ ∈ t.tli.queue ∨ (getU u t).dropWait = .waiting))
    ∧ ((getU u s).state ≠ .ranging → (getU u t).dropWait = .idle)

/-- Record `u` has been sent to ranging again with the provisional EqD `prov` (R58). -/
def RangesAgain (u : UnitNo) (prov : Option Nat) (s t : State) : Prop :=
  (getU u t).state = .ranging ∧ (getU u t).returning = true ∧ (getU u t).provEqd = prov ∧ (getU u t).eqd = (getU u s).eqd
    ∧ (getU u t).attempts = 0 ∧ (getU u t).corrHold = 0 ∧ (getU u t).lostHold = 0 ∧ (getU u t).claimRefresh = 0
    ∧ (getU u t).credit = (getU u s).credit ∧ (getE u t).attemptPending = false
    ∧ t.ec.rangingQueue = s.ec.rangingQueue.filter (· ≠ u) ++ [u]

/-! ### Bursts -/

/-- The delimiter stands in a stretch of `length` grains from grain `first` on (R15). -/
def DelimiterIn (first length : Nat) (b : Burst) : Prop := 32 * first ≤ b.pos ∧ b.pos < 32 * (first + length)

/-- None of the tests 1 to 4 of R94 holds for the burst on the grant. -/
def ValidOn (g : GrantRecord) (b : Burst) : Prop :=
  DelimiterIn g.start g.length b ∧ headerOk b.header = true ∧ b.header.unit.toNat = g.unit
    ∧ (burstDelta g.start b).natAbs ≤ 64 ∧ b.header.kind.toNat = g.kind.code
    ∧ b.header.dlen.toNat ≤ 4 * (g.pc + g.pe) ∧ burstOk (g.pc + g.pe) b = true

/-- Tests 1 to 3 of R94 do not hold for the burst on the grant, and test 4 does: ERRORED. -/
def ErroredOn (g : GrantRecord) (b : Burst) : Prop :=
  DelimiterIn g.start g.length b ∧ (headerOk b.header = false ∨ b.header.unit.toNat = g.unit)
    ∧ (burstDelta g.start b).natAbs ≤ 64
    ∧ (headerOk b.header = false ∨ b.header.kind.toNat ≠ g.kind.code ∨ 4 * (g.pc + g.pe) < b.header.dlen.toNat
        ∨ burstOk (g.pc + g.pe) b = false)

/-- Test 2 of R94 holds for the burst on the grant: WRONG_UNIT. -/
def WrongUnitOn (g : GrantRecord) (b : Burst) : Prop :=
  DelimiterIn g.start g.length b ∧ headerOk b.header = true ∧ b.header.unit.toNat ≠ g.unit

/-- What a failed grant `g` has done to the record of its unit, by the record's state (R31, R99, R100, R102, R106). -/
def GrantFailed (u : UnitNo) (g : GrantRecord) (s t : State) : Prop :=
  (getU u t).report = (getU u s).report ∧ (getU u t).streak = (getU u s).streak ∧ (getU u t).level = (getU u s).level
    ∧ (getU u t).credit = (getU u s).credit ∧ (getA u t).live = (getA u s).live ∧ t.tli.upstream = s.tli.upstream
    ∧ ((getU u s).state = .free ∨ (getU u s).state = .claiming → getU u t = getU u s ∧ t.bm = s.bm)
    ∧ ((getU u s).state = .retiring →
        getU u t = { getU u s with outstanding := (getU u s).outstanding - (g.pc + g.pe) } ∧ t.bm = s.bm)
    ∧ (onTree (getU u s) = true → (getU u t).outstanding = (getU u s).outstanding - (g.pc + g.pe)
        ∧ (s.lm.lastDark = true → t.bm.interfered = min 4294967295 (s.bm.interfered + 1)
            ∧ (getU u t).silent = (getU u s).silent ∧ (getU u t).state = (getU u s).state)
        ∧ (s.lm.lastDark = false → t.bm = s.bm ∧ (getU u t).silent = min 16 ((getU u s).silent + 1)
            ∧ ((getU u s).state = .active → 15 ≤ (getU u s).silent → (getU u t).state = .lost ∧ (getU u t).lostHold = 240000
                ∧ (getU u t).poll = 64 ∧ OccurredOnce .unitLost s t)
            ∧ ((getU u s).state ≠ .active ∨ (getU u s).silent < 15 →
                (getU u t).state = (getU u s).state ∧ getK .unitLost t = getK .unitLost s)))

/-- One tail event more, the first of a span opening it (R115). -/
def charged (r : UnitRecord) : UnitRecord :=
  { r with tailEvents := r.tailEvents + 1, tailSpan := if r.tailEvents = 0 then 0 else r.tailSpan }

/-- The fourth tail event of record `v` within its span (R114, R116): TAIL_RERANGE occurs, and the record is ranged again with the
EqD it has or, at the third time, condemned. -/
def FourthTail (v : UnitNo) (x : Serial) (s t : State) : Prop :=
  OccurredOnce .tailRerange s t
    ∧ (getU v t).tailEvents = 0 ∧ (getU v t).tailSpan = 0 ∧ (getU v t).tailReranges = (getU v s).tailReranges + 1
    ∧ ((getU v s).tailReranges < 2 → RangesAgain v (getU v s).eqd s t ∧ t.tli = s.tli)
    ∧ (2 ≤ (getU v s).tailReranges → LeftService v s t ∧ (getU v t).barSent = true ∧ isBarred x t = true
        ∧ OccurredOnce .rogueCondemned s t
        ∧ (s.tli.queue.length < 64 → .barSerial x ∈ urgentOrders t)
        ∧ (64 ≤ s.tli.queue.length → ⟨x, false⟩ ∈ t.lm.barWait))

/-- The tests of R61 on the findings for a ranging grant at grain `start`. -/
def RangingAccepted (u : UnitNo) (start : Nat) (b : Burst) : Prop :=
  DelimiterIn (start - 8) 28 b ∧ (burstDelta start b).natAbs ≤ 256 ∧ headerOk b.header = true ∧ burstOk 2 b = true
    ∧ b.header.kind = 3 ∧ b.header.unit.toNat = u.val ∧ ∀ y ∈ b.payload, y = 90

/-- The unit's data or report-only grant `g` of the held plan of round `n` has not been answered yet (R93). -/
def AwaitsFindings (n : Nat) (u : UnitNo) (g : GrantRecord) (s : State) : Prop :=
  ∃ p, findPlan n s = some p ∧ unitGrant u p = some g ∧ g.answered = false

/-- The parts of a premises unit's burst stand in the order of R14. -/
def StandsInOrder (b : PuBurst) : Prop :=
  b.bytes = List.replicate 8 0x00 ++ List.replicate 16 0xAA ++ beBytes 4 Config.delimiter.toNat
    ++ headerBytes b.header ++ [b.header.check] ++ b.payload ++ beBytes 4 b.check.toNat

/-! ### Light -/

/-- A reading of the stretch, taken as a level code, exceeds Tdark (R17, R111). -/
def LitOver (readings : List Nat) (s : State) : Prop := ∃ r ∈ readings, (inForce s).tdark < min 1023 r

/-- A clear set covers unit `u` (R119). -/
def ClearSet.covers (u : UnitNo) : ClearSet → Bool
  | .nothing => false
  | .all => true
  | .units l => decide (u ∈ l)

/-- The verdict UNLOCATED (R128): ROGUE_UNLOCATED, HOLDOFF for 240,000 rounds, and one closing offer of a SPEAK_ALL, whose carriage
clears every hush flag: made at once, made again when the queue refuses it, or made behind the closing offers that still wait. That it is made at once
while a step is still queued is the model's reading (log entry 18). -/
def UnlocatedVerdict (s t : State) : Prop :=
  t.lm.iso.phase = .holdoff ∧ t.lm.iso.holdoff = 240000 ∧ t.lm.iso.cause = .unlocated ∧ t.lm.iso.countFrom = .held
    ∧ OccurredOnce .rogueUnlocated s t ∧ t.ut = s.ut
    ∧ (s.lm.iso.closing = [] → s.tli.queue.length < 64 → urgentOrders t = urgentOrders s ++ [.speakAll]
        ∧ ⟨.speakAll, .lm, .closingEnd .all⟩ ∈ t.tli.queue ∧ t.lm.iso.closing = []
        ∧ t.lm.iso.closingOut = s.lm.iso.closingOut + 1)
    ∧ (s.lm.iso.closing ≠ [] ∨ 64 ≤ s.tli.queue.length →
        t.tli = s.tli ∧ t.lm.iso.closing = s.lm.iso.closing ++ [⟨[.speakAll], .all⟩])

/-- The verdict UNENROLLED (R127): ROGUE_UNENROLLED, HOLDOFF for 240,000 rounds, the hush flags of the records off the tree
cleared at once, and closing offers of a SPEAK_UNIT for each hushed record on the tree, 32 at most to an offer. One after another
they join the queue while it has room for the whole of the next, and each clears its own units' flags at its carriage. -/
def UnenrolledVerdict (s t : State) : Prop :=
  let hushed := allUnits.filter (fun u => onTree (getU u s) && (getU u s).hush)
  t.lm.iso.phase = .holdoff ∧ t.lm.iso.holdoff = 240000 ∧ t.lm.iso.cause = .unenrolled ∧ OccurredOnce .rogueUnenrolled s t
    ∧ (∀ u, getU u t = if onTree (getU u s) = true then getU u s else { getU u s with hush := false })
    ∧ (hushed = [] → t.tli = s.tli ∧ t.lm.iso.closing = s.lm.iso.closing ∧ t.lm.iso.countFrom = s.lm.iso.countFrom)
    ∧ (hushed ≠ [] → t.lm.iso.countFrom = .held
        ∧ (∀ u ∈ hushed, (∃ q ∈ t.tli.queue, ∃ c, q.mark = .closingEnd c ∧ c.covers u = true)
            ∨ ∃ o ∈ t.lm.iso.closing, o.clears.covers u = true)
        ∧ ∃ k, k = (if s.lm.iso.closing ≠ [] ∨ 64 < s.tli.queue.length + min 32 hushed.length then 0
              else if s.tli.queue.length + hushed.length ≤ 64 then hushed.length else 32)
          ∧ urgentOrders t = urgentOrders s ++ (hushed.take k).map .speakUnit
          ∧ t.tli.queue.length = s.tli.queue.length + k
          ∧ t.lm.iso.closing.flatMap (·.orders) = s.lm.iso.closing.flatMap (·.orders) ++ (hushed.drop k).map .speakUnit)

/-! ### The district -/

/-- F is what R156 makes of the present loads and of K. -/
def FactorIsCurrent (s : State) : Prop :=
  ∀ sum, sum = min 4294967295 ((s.dv.loads.toList.filter (·.present)).map (·.load)).sum →
    s.dv.factor = if sum = 0 then 256 else min 256 (max 32 (256 * (inForce s).budget / sum))

/-! ### Laws of the lists and queues -/

/-- The downstream order queue holds at most 64 orders, the groups in order (R8). -/
def QueueLaw (s : State) : Prop :=
  s.tli.queue.length ≤ 64 ∧ s.tli.queue.Pairwise (fun a b => orderGroup a.order ≤ orderGroup b.order)

/-- The outbox holds at most 32 notices, at most 4 of them usage notices, in the order of their classes (R175). -/
def OutboxLaw (s : State) : Prop :=
  s.sbp.outbox.length ≤ 32 ∧ usageHeld s.sbp.outbox ≤ 4
    ∧ s.sbp.outbox.Pairwise (fun a b => a.body.cls ≤ b.body.cls)

/-- The permit list holds at most 16 entries and the strangers list at most 8, each serial once (R40, R43). -/
def EnrolmentListLaw (s : State) : Prop :=
  s.ec.permits.length ≤ 16 ∧ (s.ec.permits.map (·.serial)).Nodup
    ∧ s.ec.strangers.length ≤ 8 ∧ (s.ec.strangers.map (·.serial)).Nodup

/-- The claims list holds at most 32 entries, each key once; the barred list at most 16, each serial once (R157, R162). -/
def DistrictListLaw (s : State) : Prop :=
  s.dv.claims.length ≤ 32 ∧ (s.dv.claims.map (fun e => (e.serial, e.peer))).Nodup
    ∧ s.dv.barred.length ≤ 16 ∧ (s.dv.barred.map (·.serial)).Nodup

/-- F lies within 32..256 (R156). -/
def FactorLaw (s : State) : Prop := 32 ≤ s.dv.factor ∧ s.dv.factor ≤ 256

/-- The law of one alarm record (R185): at most 4 waiting serials, none repeated, none the subject; nothing while not raised. -/
def AlarmRecordLaw (a : AlarmRecord) : Prop :=
  a.waiting.length ≤ 4 ∧ a.waiting.Nodup ∧ (∀ x ∈ a.waiting, a.subject ≠ some x)
    ∧ (a.raised = false → a.subject = none ∧ a.waiting = [])

/-- Every alarm record keeps its law (R185). -/
def AlarmLaw (s : State) : Prop := ∀ k, AlarmRecordLaw (getK k s)

/-! ### Laws of the records -/

/-- No two non-FREE records hold one serial, a FREE record holds none, and no record that has never served holds a barred
serial (R24). -/
def SerialLaw (s : State) : Prop :=
  (∀ u, (getU u s).state = .free → (getU u s).serial = none)
    ∧ (∀ u v x, (getU u s).serial = some x → (getU v s).serial = some x → u = v)
    ∧ (∀ u x, neverServed (getU u s) = true → (getU u s).serial = some x → isBarred x s = false)

/-- Every record's credit lies within the bucket of its profile (R74). -/
def CreditLaw (s : State) : Prop := ∀ u, (getU u s).credit ≤ bmax (getU u s).profile

/-- The ranging queue holds the unit number of every record in RANGING, once, and no other; only such a record has an attempt
pending (R57). An end of a restart that has been tested and not yet taken finds every record FREE (R195). -/
def RangingLaw (s : State) : Prop :=
  s.ec.rangingQueue.Nodup ∧ (∀ u, u ∈ s.ec.rangingQueue ↔ (getU u s).state = .ranging)
    ∧ (∀ u, (getE u s).attemptPending = true → (getU u s).state = .ranging)
    ∧ (s.sc.restartEnds = true → s.sc.phase = .restarting ∧ ∀ u, (getU u s).state = .free)

/-- A final snapshot, or one that waits for a close, belongs to a RETIRING record (R140, R148). -/
def ClosingLaw (s : State) : Prop :=
  ∀ u p, (getA u s).snapshot = some p → (p.isFinal = true ∨ p.closePending = true) → (getU u s).state = .retiring

/-- In a counter set whose flag is clear, busy excess ≤ excess ≤ the sum of the upstream bands (R135). -/
def CounterSetLaw (c : CounterSet) : Prop :=
  c.saturated = false → c.busy ≤ c.excess ∧ c.excess ≤ c.up.toList.sum

/-- Every live set and every snapshot keeps the order of its counters (R135). -/
def CounterLaw (s : State) : Prop :=
  ∀ u, CounterSetLaw (getA u s).live ∧ (∀ p, (getA u s).snapshot = some p → CounterSetLaw p.counters)

/-! ### The grants of a plan -/

/-- The first grain that a grant record keeps for itself: a discovery window opens at grain 0, a ranging window eight grains
before its grant (R4, R71). -/
def grantFrom (g : GrantRecord) : Nat :=
  match g.kind with
  | .discovery => 0
  | .ranging => g.start - 8
  | .data => g.start
  | .reportOnly => g.start

/-- The grain after the last one that a grant record keeps for itself (R4, R71). -/
def grantTo (g : GrantRecord) : Nat :=
  match g.kind with
  | .discovery => g.length
  | .ranging => g.start + 20
  | .data => g.start + g.length
  | .reportOnly => g.start + g.length

/-- The plan made last (R70). -/
def latestPlan (s : State) : Option Plan := s.gs.plans.getLast?

/-- The grains that a plan's windows take from the capacity: a discovery window its own length, a ranging window 28 (R4, R72). -/
def windowGrains (p : Plan) : Nat :=
  (p.grants.map (fun g => match g.kind with
    | .discovery => g.length
    | .ranging => 28
    | .data => 0
    | .reportOnly => 0)).sum

/-- A record as stages 2 to 4 of a plan made in SERVING leave it: the staged profile taken up with credit cut to its Bmax (R25),
the committed rate added up to Bmax (R73, R74), the poll countdown lowered (R32, R77). -/
def readyRecord (r : UnitRecord) : UnitRecord :=
  let q := r.staged.getD r.profile
  let rate := q.m * 16 * 4 ^ q.s
  let top := max (8 * rate) 3072
  let kept := if r.staged.isSome then min r.credit top else r.credit
  { r with
    profile := q
    staged := none
    credit := if r.state = .active ∧ r.hush = false then min (kept + rate) top else kept
    poll := if (r.state = .active ∨ r.state = .lost) ∧ r.hush = false then r.poll - 1 else r.poll }

/-- What the passes of a plan give: to each unit its committed and excess payload, whether the committed pass gave it a grant, and
whether it is polled as a LOST record. -/
structure Gifts where
  pc     : UnitNo → Nat
  pe     : UnitNo → Nat
  early  : UnitNo → Bool
  polled : UnitNo → Bool

/-- What a unit's grant of the committed pass costs (R79, R80). -/
def Gifts.cost (x : Gifts) (u : UnitNo) : Nat := if 1 ≤ x.pc u then x.pc u + 10 else if x.early u then 10 else 0

/-- What a unit's excess costs (R83). -/
def Gifts.extra (x : Gifts) (u : UnitNo) : Nat := if x.pe u = 0 then 0 else if x.early u then x.pe u else x.pe u + 10

/-- The committed pass over the units `l` with `cap` grains (R76, R79, R80): each unit's payload by its demand, its whole grains
of credit, its peak and what the units before it have left; and a due poll where no data grant is given. -/
def CommittedPass (r : UnitNo → UnitRecord) (l : List UnitNo) (cap : Nat) (x : Gifts) : Prop :=
  ∀ a u b, l = a ++ u :: b →
    let rem := cap - (a.map x.cost).sum
    let c := min ((r u).report - (r u).outstanding) (min ((r u).credit / 256) (8 * (r u).profile.pk))
    x.pc u = (if c = 0 then 0 else if c + 10 ≤ rem then c else if 11 ≤ rem then rem - 10 else 0)
      ∧ (x.early u = true ↔ 1 ≤ x.pc u ∨ ((r u).poll = 0 ∧ 10 ≤ rem))

/-- The excess want of a unit, 0 for one of weight 0 (R82). -/
def Gifts.want (x : Gifts) (r : UnitNo → UnitRecord) (u : UnitNo) : Nat :=
  if (r u).profile.w = 0 then 0
  else min ((r u).report - (r u).outstanding - x.pc u) (8 * (r u).profile.pk - x.pc u)

/-- The excess pass over the units `l`, with `left` grains after the committed pass and the district factor `f` (R81 to R83). -/
def ExcessPass (r : UnitNo → UnitRecord) (l : List UnitNo) (left f : Nat) (x : Gifts) : Prop :=
  ∀ a u b, l = a ++ u :: b →
    let rem := left - (a.map x.extra).sum
    let weights := ((l.filter (fun v => decide (1 ≤ x.want r v))).map (fun v => (r v).profile.w)).sum
    let share := left * f / 256 * (r u).profile.w / weights
    x.pe u = (if left * f / 256 = 0 ∨ weights = 0 ∨ x.want r u = 0 then 0
      else if x.early u then min share (min (x.want r u) rem)
      else min (share - 10) (min (x.want r u) (rem - 10)))

/-- The polls of the LOST units `l`, with `left` grains (R85). -/
def LostPolls (r : UnitNo → UnitRecord) (l : List UnitNo) (left : Nat) (x : Gifts) : Prop :=
  ∀ a u b, l = a ++ u :: b →
    (x.polled u = true ↔ (r u).poll = 0 ∧ 10 ≤ left - (a.map (fun v => if x.polled v then 10 else 0)).sum)

end Sys2Proof.Machine
end

