-- ==== Sys2Proof/Certificates/Slice0/Obligations.lean ====
section
/-!
DEFINITION. The statements for the provers. Each says what a command or the machine does by a numbered rule of spec/; one that
rests on a choice of the model says so and names its log entry.
-/
open Sys2Proof Sys2Proof.Machine

/-! ### The machine, reset and the hold of a reset -/

/-- 0.6.6. A step runs the command at the front of the queue on the state with the queue's rest. That the block idles on an empty
queue is the model's choice (log entry 3). -/
def Obligations.StepRunsFrontCommand : Prop :=
  ∀ s, (∀ c rest, s.pending = c :: rest → step s = exec c { s with pending := rest })
    ∧ (s.pending = [] → step s = .next s)

/-- R190, R191, R196. What RESET_RELEASE leaves: the straps sampled, the first cause present, LISTEN with 400 rounds to go, the
presence notice in the outbox, every unit record blank, the isolation machine as R117 has it, and the lists, counts and pointers of
the other blocks at the At-reset values named. -/
def Obligations.ResetReleaseLeavesResetValues : Prop :=
  ∀ pins causes s, ∃ t, exec (.resetRelease pins causes) s = .next t
    ∧ t.held = false ∧ t.sc.station = pins.station ∧ t.sc.reach = pins.reach
    ∧ (causes.powerOn = true → t.sc.cause = .powerOn)
    ∧ (causes.powerOn = false → causes.brownOut = true → t.sc.cause = .brownOut)
    ∧ (causes.powerOn = false → causes.brownOut = false → causes.resetPin = true → t.sc.cause = .resetPin)
    ∧ t.sc.phase = .listen ∧ t.sc.listenCount = 400 ∧ t.sc.enlistCount = 0 ∧ t.sc.settings = none
    ∧ t.sbp.outbox.map (·.body) = [.presence t.sc.cause pins.reach] ∧ t.sbp.slot = none
    ∧ t.sbp.quiet = 0 ∧ t.sbp.heardQuiet = false
    ∧ t.sbp.lineFaults = 0 ∧ t.sbp.recvErrors = 0 ∧ t.sbp.refused = 0
    ∧ (∀ u, getU u t = UnitRecord.blank ∧ (getU u t).state = .free ∧ (getU u t).serial = none
        ∧ (getU u t).cooling = 0 ∧ (getU u t).dropPending = false ∧ (getU u t).credit = 0 ∧ (getU u t).outstanding = 0 ∧ (getU u t).hush = false)
    ∧ (∀ u, getE u t = EcUnit.blank ∧ (getE u t).measurement = none ∧ (getE u t).attemptPending = false)
    ∧ (∀ u, (getA u t).live = CounterSet.zero ∧ (getA u t).takeNo = 0 ∧ (getA u t).snapshot = none)
    ∧ t.tli.nextRound = 0 ∧ t.tli.queue = [] ∧ t.tli.stream = [] ∧ t.tli.undeliverable = 0
    ∧ t.ec.permits = [] ∧ t.ec.strangers = [] ∧ t.ec.rangingQueue = [] ∧ t.ec.sinceDiscovery = 1024
    ∧ t.gs.plans = [] ∧ t.gs.servicePtr = 0 ∧ t.gs.intervalSum = 0 ∧ t.gs.intervalCount = 0
    ∧ t.bm.interfered = 0 ∧ t.lm.lastDark = false ∧ t.lm.iso = Isolation.atReset ∧ t.lm.iso.phase = .watch ∧ t.lm.barWait = []
    ∧ t.ucb.band = 0 ∧ t.ucb.out = 0 ∧ t.ucb.pacePtr = 63
    ∧ (∀ k, (t.dv.loads.get k).load = 0 ∧ (t.dv.loads.get k).age = 0
        ∧ ((t.dv.loads.get k).present = true ↔ k = pins.station))
    ∧ t.dv.factor = 256 ∧ t.dv.claims = [] ∧ t.dv.claimsOverflow = 0 ∧ t.dv.barred = [] ∧ t.dv.evictions = 0
    ∧ (∀ k, getK k t = AlarmRecord.clear)

/-- R196, R184. While a reset is held the part sends nothing: the notice being sent stops, and no command but a release puts
anything on the tree line or in the shelf bus port. That every such command changes nothing at all is the model's reading (log
entry 3), and so is that RESET_HELD leaves every other item, the outbox among them, as it stands until the release (log entry
19). -/
def Obligations.HeldResetSilencesThePart : Prop :=
  ∀ s, ∃ t, exec .resetHeld s = .next t
    ∧ t = { s with held := true, sbp := { s.sbp with slot := none } }
    ∧ ∀ c, (∀ pins causes, c ≠ .resetRelease pins causes) →
        ∃ v, exec c t = .next v ∧ v.tli = t.tli ∧ v.sbp = t.sbp ∧ v.held = true

/-! ### Rounds, frames and plans -/

/-- R1, R5, R6, R11, R20, R68, R70, R145, R195. A round-marker event sends the frame of the next round: at most 100,000 bytes, the
restart mark set outside SERVING, at most eight orders, and the entries of the plan made at the event, none of them in a marked
frame. The frame reaches every premises unit not named as missing it. At the end of the event the part finds whether a restart ends
and whether pacing is due. -/
def Obligations.RoundMarkerSendsTheNextFrame : Prop :=
  ∀ missed s, s.held = false → ∃ t f p, exec (.roundMarker missed) s = .next t
    ∧ t.tli.lastFrame = some f ∧ f.round = s.tli.nextRound ∧ t.tli.nextRound = (s.tli.nextRound + 1) % 65536
    ∧ (f.mark = true ↔ t.sc.phase ≠ .serving) ∧ f.orders.length ≤ 8 ∧ f.bytes.length ≤ 100000
    ∧ latestPlan t = some p ∧ p.round = f.round
    ∧ f.entries = p.grants.map (fun g => ⟨g.unit, g.kind, g.start, g.length⟩)
    ∧ (f.mark = true → f.entries = [])
    ∧ t.pus = puReceive f missed s.pus
    ∧ (t.sc.restartEnds = true ↔ t.sc.phase = .restarting ∧ ∀ u, (getU u t).state = .free)
    ∧ (t.ucb.paceDue = true ↔ t.ucb.out < 4 ∧ ∃ u q, (getA u t).snapshot = some q ∧ q.notice = .unqueued)

/-- R86, with R71 and R72. In every plan the windows and the unit grants are disjoint and in order, and all of them end before
the dark window. -/
def Obligations.PlannedGrantsNeverOverlap : Prop :=
  ∀ missed s, s.held = false → ∃ t p, exec (.roundMarker missed) s = .next t ∧ latestPlan t = some p
    ∧ p.grants.Pairwise (fun g h => grantTo g ≤ grantFrom h)
    ∧ ∀ g ∈ p.grants, grantFrom g < grantTo g ∧ grantTo g ≤ 12484

/-- R87, R44, R60, R71, R83, R86. Who a plan grants to: payload to ACTIVE records without the hush flag and never beyond 8 × pk
grains, report-only grants to ACTIVE or LOST ones, ranging grants to RANGING ones, no unit twice, windows in WATCH alone, and
nothing outside SERVING. A discovery window is planned when R44 has it due, and the records ranged are the first two of the ranging
queue that R60 makes eligible; what had come due before the event has come about first (`flushDue`, log entry 5). That a record with an EQD offered before its entry to
RANGING and carried in the frame at hand is not ranged is the model's choice (log entry 23). The premises are the laws that every step keeps (`RangingAndClosingLawsAreKept`). -/
def Obligations.PlanGrantsByRecordState : Prop :=
  ∀ missed s, s.held = false → RangingLaw s → ClosingLaw s → ∃ t f p, exec (.roundMarker missed) s = .next t
    ∧ t.tli.lastFrame = some f ∧ latestPlan t = some p ∧ (p.grants.map (·.unit)).Nodup
    ∧ (t.sc.phase ≠ .serving → p.grants = [])
    ∧ (∀ g ∈ p.grants,
        (g.kind = .data → ∃ u : UnitNo, g.unit = u.val ∧ (getU u t).state = .active ∧ (getU u t).hush = false
          ∧ 1 ≤ g.pc + g.pe ∧ g.pc + g.pe ≤ 8 * (getU u t).profile.pk ∧ g.length = 10 + g.pc + g.pe)
        ∧ (g.kind = .reportOnly → ∃ u : UnitNo, g.unit = u.val
          ∧ ((getU u t).state = .active ∨ (getU u t).state = .lost) ∧ (getU u t).hush = false
          ∧ g.pc = 0 ∧ g.pe = 0 ∧ g.length = 10)
        ∧ (g.kind = .ranging → t.lm.iso.phase = .watch ∧ ∃ u : UnitNo, g.unit = u.val ∧ (getU u t).state = .ranging
          ∧ (getU u t).hush = false ∧ (getE u t).attemptPending = true)
        ∧ (g.kind = .discovery → t.lm.iso.phase = .watch ∧ g.unit = 64)
        ∧ (g.busy = true → 1 ≤ g.pe ∧ t.dv.factor < 256))
    ∧ ((∃ g ∈ p.grants, g.kind = .discovery) ↔ t.sc.phase = .serving ∧ t.lm.iso.phase = .watch
        ∧ (t.ec.permits ≠ [] ∨ ∃ u, (getU u t).state = .lost) ∧ (inForce t).interval ≤ s.ec.sinceDiscovery)
    ∧ ((∃ g ∈ p.grants, g.kind = .discovery) → t.ec.sinceDiscovery = 0)
    ∧ ((∀ g ∈ p.grants, g.kind ≠ .discovery) → t.ec.sinceDiscovery = min 1024 (s.ec.sinceDiscovery + 1))
    ∧ (t.sc.phase = .serving → t.lm.iso.phase = .watch →
        (p.grants.filter (fun g => g.kind == .ranging)).map (·.unit) = ((t.ec.rangingQueue.filter (fun u =>
          !(getE u (flushDue s)).attemptPending && !(getU u t).hush && (getE u t).assignWait == .idle
            && t.tli.queue.all (fun q => !isAssignFor u q.order && !isEqdFor u q.order)
            && f.orders.all (fun o => !isAssignFor u o && !isEqdFor u o))).take 2).map (·.val))

/-- R74, R76, R77, R79 to R83, R85, R87, R25, R32. What a plan made in SERVING gives and writes. The committed pass, the excess pass
and the LOST polls give each unit its payloads; a unit has a grant of those payloads exactly when a pass gave it one. The committed
rate is added up to Bmax, a grant takes 256 of credit for each committed grain and raises O by its payload, and the poll countdown
starts again at 8, or at 64 for a LOST record. A record without a unit grant keeps its credit and O after the addition. -/
def Obligations.PlanChargesItsGrants : Prop :=
  ∀ n carried s, s.sc.phase = .serving →
    let t := planRound n carried s
    let r := fun u => readyRecord (getU u s)
    let ring := (List.finRange 64).map (fun i => s.gs.servicePtr + i)
    let act := ring.filter (fun u => (getU u s).state == .active && !(getU u s).hush)
    let lost := ring.filter (fun u => (getU u s).state == .lost && !(getU u s).hush)
    ∃ (p : Plan) (x : Gifts), latestPlan t = some p
      ∧ CommittedPass r act (12484 - windowGrains p) x
      ∧ ExcessPass r act (12484 - windowGrains p - (act.map x.cost).sum) s.dv.factor x
      ∧ LostPolls r lost (12484 - windowGrains p - (act.map x.cost).sum - (act.map x.extra).sum) x
      ∧ ∀ u,
        (∀ g ∈ p.grants, (g.kind = .data ∨ g.kind = .reportOnly) → g.unit = u.val →
          (u ∈ act → g.pc = x.pc u ∧ g.pe = x.pe u)
          ∧ (getU u t).credit + 256 * g.pc = (r u).credit
          ∧ (getU u t).outstanding = (if (r u).state = .lost then (r u).outstanding
              else min 65535 ((r u).outstanding + g.pc + g.pe))
          ∧ (getU u t).poll = (if (r u).state = .lost then 64 else 8))
        ∧ ((∃ g ∈ p.grants, (g.kind = .data ∨ g.kind = .reportOnly) ∧ g.unit = u.val) ↔
            (u ∈ act ∧ (x.early u = true ∨ 1 ≤ x.pe u)) ∨ (u ∈ lost ∧ x.polled u = true))
        ∧ ((∀ g ∈ p.grants, (g.kind = .data ∨ g.kind = .reportOnly) → g.unit ≠ u.val) →
            (getU u t).credit = (r u).credit ∧ (getU u t).outstanding = (r u).outstanding ∧ (getU u t).poll = (r u).poll)

/-- R8, R9, R12. An order offered to a queue with a place free stands after every order of its own and of lower groups, ahead of
every order of higher groups, and the others keep their order; a full queue is left as it stands. A withdrawal removes the
producer's own orders that it names, and no other, and tells the producer how many went. -/
def Obligations.OfferedOrderJoinsItsGroup : Prop :=
  (∀ p o s, QueueLaw s →
    (s.tli.queue.length < 64 → ∃ a b, (offerOrder p o s).tli.queue = a ++ ⟨o, p, .plain⟩ :: b ∧ a ++ b = s.tli.queue
      ∧ (∀ x ∈ a, orderGroup x.order ≤ orderGroup o) ∧ (∀ x ∈ b, orderGroup o < orderGroup x.order))
    ∧ (s.tli.queue.length = 64 → offerOrder p o s = s))
  ∧ ∀ p which s, ∃ t n, withdrawOrders p which s = (t, n) ∧ t = { s with tli := { s.tli with queue := t.tli.queue } }
    ∧ t.tli.queue.Sublist s.tli.queue ∧ (∀ q, q ∈ t.tli.queue ↔ q ∈ s.tli.queue ∧ ¬(q.producer = p ∧ which q.order = true))
    ∧ t.tli.queue.length + n = s.tli.queue.length

/-- R11, R13, R30, R59, R67, R118, R119. The frame takes the first eight orders of the queue; at the first unmarked frame after a
marked one the orders of groups 2 and 3 have gone before. Carriage reaches the producers: a carried or removed DROP_UNIT clears its
record's drop pending, an ASSIGN or EQD notes its round, and a record with no EQD left in the queue has its correction hold lowered.
The last order of an isolation step, or a step left without orders, sets the carriage round, starts the settling and puts the
step's flags down for clearing; each closing offer carried puts its own down, and the last sets counting from. That the step's
flags are those of L at its taking, a unit removed since among them, is the model's choice (log entry 26). -/
def Obligations.FrameTakesTheQueueHead : Prop :=
  ∀ missed s, ∃ f, (assembleFrame missed s).tli.lastFrame = some f ∧
    let t := assembleFrame missed s
    let n := s.tli.nextRound
    let purged := s.sc.phase = .serving ∧ ∃ g, s.tli.lastFrame = some g ∧ g.mark = true
    ∃ queue, (¬purged → queue = s.tli.queue) ∧ (purged → queue = s.tli.queue.filter (fun q => orderGroup q.order == 1)) ∧
      let carried := queue.take 8
      let closings := (carried.filter (fun q => match q.mark with
        | .closingEnd _ => true
        | _ => false)).length
      f.orders = carried.map (·.order) ∧ t.tli.queue = queue.drop 8
      ∧ (∀ u, ((∃ q ∈ carried, q.order = .dropUnit u) ∨ (purged ∧ ∃ q ∈ s.tli.queue, q.order = .dropUnit u) →
            (getU u t).dropPending = false)
          ∧ ((∀ q ∈ carried, q.order ≠ .dropUnit u) → (purged → ∀ q ∈ s.tli.queue, q.order ≠ .dropUnit u) →
            (getU u t).dropPending = (getU u s).dropPending)
          ∧ ((∃ q ∈ carried, isAssignFor u q.order || isEqdFor u q.order) → (getE u t).lastCarriage = some n)
          ∧ ((∃ q ∈ t.tli.queue, isEqdFor u q.order = true) → (getU u t).corrHold = (getU u s).corrHold)
          ∧ ((∀ q ∈ t.tli.queue, isEqdFor u q.order = false) → (getU u t).corrHold = (getU u s).corrHold - 1))
      ∧ (s.lm.iso.step = .emptied ∨ (s.lm.iso.step = .toCarry ∧ ∃ q ∈ carried, q.mark = .stepEnd) →
          t.lm.iso.carriage = n ∧ t.lm.iso.step = (if s.lm.iso.restep then .idle else .settling)
          ∧ t.lm.iso.samples = 0 ∧ t.lm.iso.litSamples = 0 ∧ t.lm.iso.stepClears = []
          ∧ ∀ u ∈ s.lm.iso.stepClears, ∃ c ∈ t.lm.iso.clearings, c.due = false ∧ c.clears.covers u = true)
      ∧ (s.lm.iso.step ≠ .emptied → (s.lm.iso.step ≠ .toCarry ∨ ∀ q ∈ carried, q.mark ≠ .stepEnd) →
          t.lm.iso.step = s.lm.iso.step ∧ t.lm.iso.carriage = s.lm.iso.carriage ∧ t.lm.iso.samples = s.lm.iso.samples)
      ∧ t.lm.iso.closingOut = s.lm.iso.closingOut - closings
      ∧ (closings ≤ s.lm.iso.closingOut → ∀ q ∈ carried, ∀ c, q.mark = .closingEnd c → ⟨c, false⟩ ∈ t.lm.iso.clearings)
      ∧ (1 ≤ s.lm.iso.closingOut → s.lm.iso.closingOut ≤ closings → s.lm.iso.closing = [] →
          t.lm.iso.countFrom = .fromRound ((n + 1) % 65536))
      ∧ (s.lm.iso.closingOut = 0 ∨ closings < s.lm.iso.closingOut ∨ s.lm.iso.closing ≠ [] →
          t.lm.iso.countFrom = s.lm.iso.countFrom)

/-- R21, R138, R109. DOWNSTREAM_PACKET_ARRIVAL puts a packet at the end of the stream, whose length has no stated bound (log entry
10), unless the port holds the backhaul off. The framer places every packet of an ACTIVE record ahead of the one at which it stops,
in order, discards and counts the others, stops at one that does not fit, and counts the bytes it places under the current band.
That a packet which waited for room is tested again is the model's choice (log entry 25). -/
def Obligations.TrafficPortPlacesPackets : Prop :=
  (∀ tag data s, s.held = false →
    (s.tli.holdOff = false → exec (.downstreamPacketArrival tag data) s
      = .next { s with tli := { s.tli with stream := s.tli.stream ++ [⟨tag, data⟩] } })
    ∧ (s.tli.holdOff = true → exec (.downstreamPacketArrival tag data) s = .next s))
  ∧ ∀ room l s, ∃ d placed t, framePackets room l s = (placed, t)
    ∧ (placed.map (fun p => p.data.length + 3)).sum ≤ room ∧ placed.Sublist l ∧ t.tli.stream <:+ l
    ∧ placed = (l.take (l.length - t.tli.stream.length)).filter (fun p => decide (p.data.length ≤ 9600)
        && allUnits.any (fun u => p.tag == u.val && (getU u s).state == .active))
    ∧ placed.length + d + t.tli.stream.length = l.length
    ∧ (d = 0 → t.tli.undeliverable = s.tli.undeliverable)
    ∧ (0 < d → t.tli.undeliverable = min 4294967295 (s.tli.undeliverable + d))
    ∧ (t.tli.holdOff = true ↔ t.tli.stream ≠ [])
    ∧ (∀ p ∈ t.tli.stream.head?, p.data.length ≤ 9600 ∧ (∃ u : UnitNo, p.tag = u.val ∧ (getU u s).state = .active)
        ∧ room < (placed.map (fun q => q.data.length + 3)).sum + p.data.length + 3)
    ∧ (∀ u : UnitNo, (getA u s).live.down.get s.ucb.band ≤ 281474976710655 →
        (getA u t).live.down.get s.ucb.band = min 281474976710655 ((getA u s).live.down.get s.ucb.band
          + ((placed.filter (fun p => p.tag == u.val)).map (fun p => p.data.length)).sum))

/-! ### Premises units -/

/-- R19. A power-down ends the firm hush of that premises unit alone, which then sends nothing. That its unit number and EqD go with
the power and its soft hush stays is the model's reading (log entry 20). -/
def Obligations.PowerDownEndsAFirmHush : Prop :=
  ∀ x s, ∃ t, exec (.puPoweredDown x) s = .next t ∧ t = { s with pus := t.pus }
    ∧ puState x t.pus = { unit := none, eqd := none, softHush := (puState x s.pus).softHush, firmHush := false }
    ∧ puBursts x t.pus = []
    ∧ ∀ y, y ≠ x → puState y t.pus = puState y s.pus ∧ puBursts y t.pus = puBursts y s.pus

/-- R19, R20, R18, R2, R3, R14. A frame acts on every premises unit that receives it: an unmarked one by its orders in their order,
each with the effect of R19's table, a marked one by clearing number, EqD and soft hush and by its BAR_SERIAL orders alone. It is
answered by what the premises unit held before those orders: with a hush by nothing; with a number and an EqD by a burst for each
entry of that number, EqD + 32·s bits after the marker; with no number by a response for each discovery entry, 32·(o + spread) bits
after it. A premises unit whose frame check fails acts on nothing and transmits nothing. Every burst is a dark guard, a preamble of
ones and zeros in turn, the delimiter, the header, the payload and the check, and its report counts the grains of data that wait.
What a premises unit picks itself, such as its spread, is a free value, and so is the delimiter's word; that the report leaves out
the burst's own data is the model's reading (log entry 24). -/
def Obligations.FrameActsOnPremisesUnits : Prop :=
  (∀ f missed t x,
    let v := puReceive f missed t
    let p := puState x t
    (x ∈ missed → puState x v = p ∧ puBursts x v = [])
    ∧ (x ∉ missed → f.mark = false → puState x v = f.orders.foldl (fun q o => puOrder (some x) o q) p
        ∧ (p.softHush = true ∨ p.firmHush = true → puBursts x v = [])
        ∧ (p.softHush = false → p.firmHush = false →
          (p.unit = none → puBursts x v = (f.entries.filter (fun e => e.kind == .discovery)).map
              (fun e => puBurstOf v.draw x (.response e)))
          ∧ (∀ u, p.unit = some u → p.eqd = none → puBursts x v = [])
          ∧ (∀ u q, p.unit = some u → p.eqd = some q →
              puBursts x v = (f.entries.filter (fun e => e.kind != .discovery && e.unit == u.val)).map
                (fun e => puBurstOf v.draw x (.burst u e (q + 32 * e.start))))))
    ∧ (x ∉ missed → f.mark = true →
        (puState x v).unit = none ∧ (puState x v).eqd = none ∧ (puState x v).softHush = false
          ∧ ((puState x v).firmHush = true ↔ p.firmHush = true ∨ .barSerial x ∈ f.orders) ∧ puBursts x v = []))
  ∧ (∀ (x y : Serial) (u : UnitNo) (q : Nat) (p : PuState),
    let dropped := { p with unit := none, eqd := none }
    (p.firmHush = true → puOrder (some x) (.assign u y q) p = p)
    ∧ (p.firmHush = false → y = x → puOrder (some x) (.assign u y q) p = { p with unit := some u, eqd := some q })
    ∧ (p.firmHush = false → y ≠ x → p.unit = some u → puOrder (some x) (.assign u y q) p = dropped)
    ∧ (y ≠ x → p.unit ≠ some u → puOrder (some x) (.assign u y q) p = p)
    ∧ (p.unit = some u → puOrder (some x) (.eqd u q) p = { p with eqd := some q }
        ∧ puOrder (some x) (.hushUnit u) p = { p with softHush := true }
        ∧ puOrder (some x) (.speakUnit u) p = { p with softHush := false }
        ∧ puOrder (some x) (.dropUnit u) p = dropped)
    ∧ (p.unit ≠ some u → puOrder (some x) (.eqd u q) p = p ∧ puOrder (some x) (.hushUnit u) p = p
        ∧ puOrder (some x) (.speakUnit u) p = p ∧ puOrder (some x) (.dropUnit u) p = p)
    ∧ puOrder (some x) .hushAll p = { p with softHush := true } ∧ puOrder (some x) .speakAll p = { p with softHush := false }
    ∧ puOrder (some x) (.barSerial x) p = { dropped with firmHush := true }
    ∧ (y ≠ x → puOrder (some x) (.barSerial y) p = p))
  ∧ ∀ (d : Nat) (x : Serial) (u : UnitNo) (e : GrantEntry) (start : Nat),
    (∀ b, b = puBurstOf d x (.response e) → StandsInOrder b ∧
      b.header.spread.toNat ≤ 63 ∧ b.start = 32 * (e.start + b.header.spread.toNat) ∧ b.length = 12 ∧ b.header.unit = 64
        ∧ b.header.kind = 4 ∧ b.header.report = 0 ∧ b.header.dlen = 8 ∧ b.payload = beBytes 8 x.toNat
        ∧ headerOk b.header = true ∧ b.check = crcBurst (headerBytes b.header ++ [b.header.check] ++ b.payload))
    ∧ (∀ b, e.kind ≠ .discovery → b = puBurstOf d x (.burst u e start) → StandsInOrder b ∧
      b.start = start ∧ b.length = e.length ∧ b.header.unit.toNat = u.val ∧ b.header.kind.toNat = e.kind.code
        ∧ b.header.spread = 0 ∧ headerOk b.header = true
        ∧ b.check = crcBurst (headerBytes b.header ++ [b.header.check] ++ b.payload)
        ∧ (∀ i, b.laserOn i = true ↔ 64 ≤ i ∧ i < 32 * e.length)
        ∧ (e.kind = .data → b.header.dlen.toNat ≤ 4 * (e.length - 10) ∧ b.payload.length = 4 * (e.length - 10)
          ∧ ∃ k, k ≤ 4 * (e.length - 10) ∧ k ≤ (Config.puWaiting d x).length ∧ b.header.dlen = BitVec.ofNat 16 k
            ∧ b.payload.take k = (Config.puWaiting d x).take k
            ∧ b.header.report.toNat = min 65535 (((Config.puWaiting d x).length - k + 3) / 4))
        ∧ (e.kind = .reportOnly → b.header.dlen = 0 ∧ b.payload = []
          ∧ b.header.report.toNat = min 65535 (((Config.puWaiting d x).length + 3) / 4))
        ∧ (e.kind = .ranging → b.header.report = 0 ∧ b.header.dlen = 8 ∧ b.payload = List.replicate 8 90))

/-! ### Records: countdowns and the re-offer of orders -/

/-- R52, R58, R59. The claim settle of a CLAIMING record runs out: RANGING with returning clear, EqD and provisional EqD both
Teq − RTD, the record at the tail of the ranging queue, and its ASSIGN queued or waiting. -/
def Obligations.ClaimSettleExpiryStartsRanging : Prop :=
  ∀ u s x rtd, s.held = false → (getU u s).state = .claiming → (getU u s).settleStarted = true → (getU u s).claimSettle = 0 →
    (getU u s).serial = some x → (getE u s).measurement = some rtd →
    ∃ t, exec (.claimSettleExpiry u) s = .next t
      ∧ (getU u t).state = .ranging ∧ (getU u t).returning = false ∧ (getU u t).serial = some x
      ∧ (getU u t).provEqd = some (teq s.sc.reach - rtd) ∧ (getU u t).eqd = some (teq s.sc.reach - rtd)
      ∧ (getU u t).attempts = 0 ∧ (getE u t).measurement = none ∧ (getE u t).attemptPending = false
      ∧ t.ec.rangingQueue = s.ec.rangingQueue.filter (· ≠ u) ++ [u]
      ∧ (s.tli.queue.length < 64 → t.tli.queue.Perm (⟨.assign u x (teq s.sc.reach - rtd), .ec, .plain⟩ :: s.tli.queue))
      ∧ (64 ≤ s.tli.queue.length → t.tli.queue = s.tli.queue ∧ (getE u t).assignWait = .waiting)
      ∧ OtherUnitsSame u s t ∧ t.sbp = s.sbp ∧ t.alarms = s.alarms

/-- R30, R59, R114. A refused ASSIGN, DROP_UNIT or BAR_SERIAL that has come due is offered again: it joins a queue with a place
free and waits no longer, and otherwise it waits on. How an offer comes due is log entry 5. -/
def Obligations.RefusedOrdersAreOfferedAgain : Prop :=
  (∀ u s x q, s.held = false → (getE u s).assignWait = .due → (getU u s).state = .ranging → (getU u s).serial = some x →
    (getU u s).provEqd = some q → ∃ t, exec (.assignReoffer u) s = .next t ∧ t.ut = s.ut
      ∧ (s.tli.queue.length < 64 → t.tli.queue.Perm (⟨.assign u x q, .ec, .plain⟩ :: s.tli.queue) ∧ (getE u t).assignWait = .idle)
      ∧ (64 ≤ s.tli.queue.length → t.tli.queue = s.tli.queue ∧ (getE u t).assignWait = .waiting))
  ∧ (∀ u s, s.held = false → (getU u s).dropWait = .due → ∃ t, exec (.dropUnitReoffer u) s = .next t
      ∧ (getU u t).dropPending = true ∧ OtherUnitsSame u s t
      ∧ (s.tli.queue.length < 64 → t.tli.queue.Perm (⟨.dropUnit u, .ut, .plain⟩ :: s.tli.queue) ∧ (getU u t).dropWait = .idle)
      ∧ (64 ≤ s.tli.queue.length → t.tli.queue = s.tli.queue ∧ (getU u t).dropWait = .waiting))
  ∧ (∀ x s, s.held = false → ⟨x, true⟩ ∈ s.lm.barWait → ∃ t, exec (.barSerialReoffer x) s = .next t ∧ t.ut = s.ut
      ∧ (s.tli.queue.length < 64 → t.tli.queue.Perm (⟨.barSerial x, .lm, .plain⟩ :: s.tli.queue)
          ∧ t.lm.barWait = s.lm.barWait.erase ⟨x, true⟩)
      ∧ (64 ≤ s.tli.queue.length → t.tli.queue = s.tli.queue
          ∧ t.lm.barWait = s.lm.barWait.erase ⟨x, true⟩ ++ [⟨x, false⟩]))

/-- R34, R35. The LOST hold runs out: UNIT_GONE occurs and the record enters RETIRING. -/
def Obligations.LostHoldExpiryRetiresTheRecord : Prop :=
  ∀ u s, s.held = false → (getU u s).state = .lost → (getU u s).lostHold = 0 →
    ∃ t, exec (.lostHoldExpiry u) s = .next t ∧ LeftService u s t ∧ OccurredOnce .unitGone s t ∧ OtherUnitsSame u s t

/-- R1, R28, R30, R43, R115, R129, R160. The counts of a round-marker event (`tickCounts`), which ROUND_MARKER runs once what had come
due before has come about (`flushDue`, log entry 5), and what the expiries of lists and counts do, each to its own entry alone: a
freed number is allocatable once the event has brought its cooling to 0, and COOLING_EXPIRY changes nothing further (log entry 8); a
stranger of 240,000 rounds and a claiming claim of 400 or a held claim of 16,000 go; and a tail span of 64 grants with fewer than
four events is forgotten. -/
def Obligations.CountsRunAndExpire : Prop :=
  (∀ s, (tickCounts s).dv.claims = s.dv.claims.map (fun e => { e with age := min 16000 (e.age + 1) })
    ∧ (tickCounts s).ec.strangers = s.ec.strangers.map (fun e => { e with age := min 240000 (e.age + 1) })
    ∧ (s.lm.iso.phase = .holdoff → (tickCounts s).lm.iso.holdoff = s.lm.iso.holdoff - 1)
    ∧ ∀ u, (getU u (tickCounts s)).state = (getU u s).state
      ∧ ((getU u s).state = .lost → (getU u (tickCounts s)).lostHold = (getU u s).lostHold - 1)
      ∧ (serves (getU u s) = true → (getU u (tickCounts s)).claimRefresh = (getU u s).claimRefresh - 1)
      ∧ (serves (getU u s) = false → (getU u (tickCounts s)).claimRefresh = (getU u s).claimRefresh)
      ∧ ((getU u s).state = .claiming → (getU u s).settleStarted = true →
          (getU u (tickCounts s)).claimSettle = (getU u s).claimSettle - 1)
      ∧ ((getU u s).state = .free → (getU u (tickCounts s)).cooling
          = if (getU u s).dropPending then (getU u s).cooling else (getU u s).cooling - 1)
      ∧ ((getU u s).state = .free → (getU u s).dropPending = false → (getU u s).cooling ≤ 1 →
          allocatable (getU u (tickCounts s)) = true))
  ∧ (∀ missed s, s.held = false → ∃ t, exec (.roundMarker missed) s = .next t ∧
      let v := tickCounts (flushDue s)
      t.dv.claims = v.dv.claims ∧ t.ec.strangers = v.ec.strangers ∧ t.lm.iso.phase = v.lm.iso.phase
      ∧ t.lm.iso.holdoff = v.lm.iso.holdoff
      ∧ ∀ u, (getU u t).state = (getU u v).state ∧ (getU u t).lostHold = (getU u v).lostHold
        ∧ (getU u t).claimRefresh = (getU u v).claimRefresh ∧ (getU u t).claimSettle = (getU u v).claimSettle
        ∧ (getU u t).cooling = (getU u v).cooling)
  ∧ (∀ u s, s.held = false → exec (.coolingExpiry u) s = .next s)
  ∧ (∀ x s, s.held = false → ∃ t, exec (.strangerAgeOut x) s = .next t
      ∧ t = { s with ec := { s.ec with strangers := t.ec.strangers } } ∧ t.ec.strangers.Sublist s.ec.strangers
      ∧ ∀ e, e ∈ t.ec.strangers ↔ e ∈ s.ec.strangers ∧ ¬(e.serial = x ∧ 240000 ≤ e.age))
  ∧ (∀ x k s, s.held = false → ∃ t, exec (.claimEntryExpiry x k) s = .next t
      ∧ t = { s with dv := { s.dv with claims := t.dv.claims } } ∧ t.dv.claims.Sublist s.dv.claims
      ∧ ∀ e, e ∈ t.dv.claims ↔ e ∈ s.dv.claims
          ∧ ¬(e.serial = x ∧ e.peer = k ∧ (e.kind = .claiming ∧ 400 ≤ e.age ∨ e.kind = .held ∧ 16000 ≤ e.age)))
  ∧ (∀ u s, s.held = false →
      (64 ≤ (getU u s).tailSpan → (getU u s).tailEvents < 4 →
        exec (.tailSpanExpiry u) s = .next (setU u { getU u s with tailEvents := 0, tailSpan := 0 } s))
      ∧ ((getU u s).tailSpan < 64 → exec (.tailSpanExpiry u) s = .next s))

/-! ### The orders of the Unit Table and the Enrolment Controller -/

/-- R38. REVOKE acts by the state of the record that holds the serial. -/
def Obligations.RevokeActsByRecordState : Prop :=
  ∀ h x s, Taken h s →
    (findUnit x s = none → exec (.revoke h x) s = .next (answered h 4 .unknownSerial .none s))
    ∧ ∀ u, findUnit x s = some u →
      ((getU u s).state = .claiming ∨ (getU u s).state = .retiring →
          exec (.revoke h x) s = .next (answered h 4 .wrongState .none s))
      ∧ ((getU u s).state = .active ∨ (getU u s).state = .lost ∨ ((getU u s).state = .ranging ∧ (getU u s).returning = true) →
          ∃ t, exec (.revoke h x) s = .next (answered h 4 .done .none t) ∧ LeftService u s t ∧ OtherUnitsSame u s t
            ∧ t.ec.permits = s.ec.permits)
      ∧ ((getU u s).state = .ranging → (getU u s).returning = false →
          ∃ t, exec (.revoke h x) s = .next (answered h 4 .done .none t) ∧ FreedDirectly u s t ∧ OtherUnitsSame u s t
            ∧ t.ec.permits = s.ec.permits ∧ (OutboxRoom 2 s → InOutbox (.claim x (getU u s).level .released u) t))

/-- R39. PROFILE checks its codes and then acts on what holds the serial. -/
def Obligations.ProfileStagesTheCodes : Prop :=
  ∀ h x c s, Taken h s →
    let p : Profile := ⟨c.m.toNat, c.s.toNat, c.pk.toNat, c.w.toNat⟩
    let permits := s.ec.permits.map (fun q => if q.serial = x then ⟨x, p⟩ else q)
    (¬(c.s.toNat ≤ 3 ∧ 1 ≤ c.pk.toNat ∧ c.w.toNat ≤ 15) →
        exec (.profile h x c) s = .next (answered h 5 .badField .none s))
    ∧ (c.s.toNat ≤ 3 → 1 ≤ c.pk.toNat → c.w.toNat ≤ 15 →
      (∀ u, findUnit x s = some u → (getU u s).state ≠ .retiring →
        ∃ t, exec (.profile h x c) s = .next (answered h 5 .done .none t)
          ∧ t = { s with ut := s.ut.set u { getU u s with staged := some p }, ec := { s.ec with permits := permits } })
      ∧ (∀ u, findUnit x s = some u → (getU u s).state = .retiring →
          exec (.profile h x c) s = .next (answered h 5 .wrongState .none s))
      ∧ (findUnit x s = none → (∃ q ∈ s.ec.permits, q.serial = x) →
          exec (.profile h x c) s = .next (answered h 5 .done .none { s with ec := { s.ec with permits := permits } }))
      ∧ (findUnit x s = none → (∀ q ∈ s.ec.permits, q.serial ≠ x) →
          exec (.profile h x c) s = .next (answered h 5 .unknownSerial .none s)))

/-- R41. PERMIT takes its tests in order and acts on the first that applies. -/
def Obligations.PermitTakesItsTestsInOrder : Prop :=
  ∀ h x c s, Taken h s →
    let p : Profile := ⟨c.m.toNat, c.s.toNat, c.pk.toNat, c.w.toNat⟩
    let strangers := s.ec.strangers.filter (fun e => e.serial ≠ x)
    (¬(c.s.toNat ≤ 3 ∧ 1 ≤ c.pk.toNat ∧ c.w.toNat ≤ 15) →
        exec (.permit h x c) s = .next (answered h 2 .badField .none s))
    ∧ (c.s.toNat ≤ 3 → 1 ≤ c.pk.toNat → c.w.toNat ≤ 15 →
      ((∃ b ∈ s.dv.barred, b.serial = x) → exec (.permit h x c) s = .next (answered h 2 .barred .none s))
      ∧ ((∀ b ∈ s.dv.barred, b.serial ≠ x) →
        ((∃ u, (getU u s).state ≠ .free ∧ (getU u s).serial = some x) →
            exec (.permit h x c) s = .next (answered h 2 .wrongState .none s))
        ∧ ((∀ u, (getU u s).state ≠ .free → (getU u s).serial ≠ some x) →
          ((∃ q ∈ s.ec.permits, q.serial = x) → exec (.permit h x c) s = .next (answered h 2 .done .none
              { s with ec := { s.ec with permits := s.ec.permits.map (fun q => if q.serial = x then ⟨x, p⟩ else q),
                                         strangers := strangers } }))
          ∧ ((∀ q ∈ s.ec.permits, q.serial ≠ x) → 16 ≤ s.ec.permits.length →
              exec (.permit h x c) s = .next (answered h 2 .full .none s))
          ∧ ((∀ q ∈ s.ec.permits, q.serial ≠ x) → s.ec.permits.length < 16 →
              exec (.permit h x c) s = .next (answered h 2 .done .none
                { s with ec := { s.ec with permits := s.ec.permits ++ [⟨x, p⟩], strangers := strangers } })))))

/-- R42. WITHDRAW removes the permit, and with it a record that has never been in service. -/
def Obligations.WithdrawEndsAPermit : Prop :=
  ∀ h x s, Taken h s →
    ((∃ q ∈ s.ec.permits, q.serial = x) →
      ((∀ u, findUnit x s = some u → neverServed (getU u s) = false) →
          exec (.withdraw h x) s = .next (answered h 3 .done .none
            { s with ec := { s.ec with permits := s.ec.permits.filter (fun q => q.serial ≠ x) } }))
      ∧ (∀ u, findUnit x s = some u → neverServed (getU u s) = true →
          ∃ t, exec (.withdraw h x) s = .next (answered h 3 .done .none t) ∧ FreedDirectly u s t ∧ OtherUnitsSame u s t
            ∧ t.ec.permits = s.ec.permits.filter (fun q => q.serial ≠ x)
            ∧ ((getU u s).state = .claiming → t.tli = s.tli)
            ∧ (OutboxRoom 2 s → InOutbox (.claim x (getU u s).level .released u) t)))
    ∧ ((∀ q ∈ s.ec.permits, q.serial ≠ x) →
      ((∃ u, (getU u s).state ≠ .free ∧ (getU u s).serial = some x) →
          exec (.withdraw h x) s = .next (answered h 3 .wrongState .none s))
      ∧ ((∀ u, (getU u s).state ≠ .free → (getU u s).serial ≠ some x) →
          exec (.withdraw h x) s = .next (answered h 3 .unknownSerial .none s)))

/-! ### Discovery and ranging -/

/-- R16, R45, R48, R29. A permitted serial heard in reach, that no record holds and no peer's claim beats, takes the lowest
allocatable record: CLAIMING, with the permit's profile and the burst level, its RTD kept and its claiming notice queued. -/
def Obligations.DiscoveryEnrolsAPermittedSerial : Prop :=
  ∀ (n : Nat) (b : Burst) (s : State) (p : Plan) (q : Permit) (u : UnitNo) (rtd : Nat), s.held = false → s.sc.phase = .serving → findPlan n s = some p → hasDiscovery p = true → p.accepted < 8 →
    acceptsResponse s.sc.reach b = true →
    (rtd : Int) = (b.pos : Int) - 192 - 32 * ((span s.sc.reach : Int) + b.header.spread.toNat) + teq s.sc.reach →
    rtdMin s.sc.reach ≤ rtd → rtd ≤ teq s.sc.reach →
    isBarred (payloadSerial b) s = false → findUnit (payloadSerial b) s = none → findPermit (payloadSerial b) s = some q →
    (∀ e ∈ s.dv.claims, e.serial = payloadSerial b → e.kind = .claiming
      ∧ ¬(meanLevel b.preamble < e.level ∨ (e.level = meanLevel b.preamble ∧ e.peer < s.sc.station))) →
    allocatable (getU u s) = true → (∀ v, v < u → allocatable (getU v s) = false) → OutboxRoom 1 s →
    ∃ t, exec (.discoveryResponse n b) s = .next t
      ∧ getU u t = { UnitRecord.blank with state := .claiming, serial := some (payloadSerial b), profile := q.profile,
                                           level := meanLevel b.preamble }
      ∧ (getE u t).measurement = some rtd
      ∧ InOutbox (.claim (payloadSerial b) (meanLevel b.preamble) .claiming u) t
      ∧ OtherUnitsSame u s t ∧ t.ec.permits = s.ec.permits ∧ t.tli = s.tli ∧ t.alarms = s.alarms

/-- R45, R46, R47, R48, R49, R43. What else an accepted response leads to: a barred serial is ignored with BARRED_SEEN; a serving
record whose premises unit is heard in reach is ranged again with Teq − RTD and its ASSIGN, and out of reach it stays as it is with
OUT_OF_REACH; a record in another state ignores it; a permitted serial that no record holds is not enrolled when it is out of reach,
when a peer holds it, when a peer's claim beats this station's, or when no record is free, each with its alarm; an unpermitted
serial goes to the end of the strangers list. -/
def Obligations.DiscoverySortsAHeardSerial : Prop :=
  ∀ n b s p, s.held = false → s.sc.phase = .serving → findPlan n s = some p → hasDiscovery p = true → p.accepted < 8 →
    acceptsResponse s.sc.reach b = true → ∃ t, exec (.discoveryResponse n b) s = .next t ∧
      let x := payloadSerial b
      let rtd : Int := (b.pos : Int) - 192 - 32 * ((span s.sc.reach : Int) + b.header.spread.toNat) + teq s.sc.reach
      let inReach := (rtdMin s.sc.reach : Int) ≤ rtd ∧ rtd ≤ (teq s.sc.reach : Int)
      let held := ∃ e ∈ s.dv.claims, e.serial = x ∧ e.kind = .held
      let beaten := ∃ e ∈ s.dv.claims, e.serial = x ∧ e.kind = .claiming
        ∧ (meanLevel b.preamble < e.level ∨ (e.level = meanLevel b.preamble ∧ e.peer < s.sc.station))
      let raisedAlone := fun k => t.ut = s.ut ∧ t.tli = s.tli ∧ t.ec = { s.ec with lostClaims := t.ec.lostClaims }
        ∧ OccurredOnce k s t
      (isBarred x s = true → raisedAlone .barredSeen)
      ∧ (isBarred x s = false →
          (∀ (u : UnitNo) (k : Nat), findUnit x s = some u → serves (getU u s) = true → (k : Int) = rtd → inReach →
            RangesAgain u (some (teq s.sc.reach - k)) s t ∧ OtherUnitsSame u s t ∧ t.sbp = s.sbp
              ∧ (s.tli.queue.length < 64 → ⟨.assign u x (teq s.sc.reach - k), .ec, .plain⟩ ∈ t.tli.queue)
              ∧ (64 ≤ s.tli.queue.length → t.tli = s.tli ∧ (getE u t).assignWait = .waiting))
          ∧ (∀ u, findUnit x s = some u → serves (getU u s) = true → ¬inReach → raisedAlone .outOfReach)
          ∧ (∀ u, findUnit x s = some u → serves (getU u s) = false → t.ut = s.ut ∧ t.ec = s.ec ∧ t.sbp = s.sbp)
          ∧ (findUnit x s = none → findPermit x s ≠ none →
              (¬inReach → raisedAlone .outOfReach)
              ∧ (inReach → held → raisedAlone .duplicateSerial)
              ∧ (inReach → ¬held → beaten → raisedAlone .claimYielded)
              ∧ (inReach → ¬held → ¬beaten → (∀ u, allocatable (getU u s) = false) → raisedAlone .tableFull))
          ∧ (findUnit x s = none → findPermit x s = none →
              t.ut = s.ut ∧ t.tli = s.tli
              ∧ ((∃ e ∈ s.ec.strangers, e.serial = x) →
                  t.ec.strangers = s.ec.strangers.filter (fun e => e.serial ≠ x) ++ [⟨x, 0⟩] ∧ t.alarms = s.alarms)
              ∧ ((∀ e ∈ s.ec.strangers, e.serial ≠ x) →
                  t.ec.strangers = (if 8 ≤ s.ec.strangers.length then s.ec.strangers.drop 1 else s.ec.strangers) ++ [⟨x, 0⟩]
                    ∧ OccurredOnce .stranger s t)))

/-- R61, R62. An accepted attempt whose final EqD is in reach: ACTIVE with 12 grains of credit, an EQD when the EqD has moved and
the queue has room, the permit gone, a held claim queued, and UNIT_JOINED at the first time. That the claim refresh starts at
4,000 although the outbox refuses the claim is the model's choice (log entry 11). -/
def Obligations.RangingSuccessMakesActive : Prop :=
  ∀ (n : Nat) (u : UnitNo) (b : Burst) (s : State) (p : Plan) (g : GrantRecord) (prov final : Nat) (x : Serial), s.held = false → findPlan n s = some p →
    p.grants.find? (fun g => g.kind == .ranging && g.unit == u.val) = some g → (getE u s).attemptPending = true →
    (getU u s).serial = some x → (getU u s).provEqd = some prov → RangingAccepted u g.start b →
    (final : Int) = (prov : Int) - burstDelta g.start b → final ≤ teq s.sc.reach →
    ∃ t, exec (.rangingAttempt n u (some b)) s = .next t
      ∧ (getU u t).state = .active ∧ (getU u t).serial = some x ∧ (getU u t).provEqd = none ∧ (getU u t).attempts = 0
      ∧ (getU u t).credit = 3072 ∧ (getU u t).silent = 0 ∧ (getU u t).streak = 0 ∧ (getU u t).poll = 8
      ∧ (getU u t).everActive = true ∧ (getU u t).claimRefresh = 4000
      ∧ (getU u t).eqd = some (if s.tli.queue.length < 64 then final else prov)
      ∧ (getU u t).corrHold = (if final ≠ prov ∧ s.tli.queue.length < 64 then 4 else (getU u s).corrHold)
      ∧ (final ≠ prov → s.tli.queue.length < 64 → t.tli.queue.Perm (⟨.eqd u final, .ec, .plain⟩ :: s.tli.queue))
      ∧ (final = prov ∨ 64 ≤ s.tli.queue.length → t.tli.queue = s.tli.queue)
      ∧ t.ec.rangingQueue = s.ec.rangingQueue.filter (· ≠ u) ∧ (getE u t).attemptPending = false
      ∧ t.ec.permits = s.ec.permits.filter (fun q => q.serial ≠ x)
      ∧ (OutboxRoom 2 s → InOutbox (.claim x (getU u s).level .held u) t)
      ∧ ((getU u s).everActive = false → OccurredOnce .unitJoined s t)
      ∧ OtherUnitsSame u s t

/-- R61, R63, R64, R65. A failed attempt: fewer than four put the record at the tail of the queue; the fourth raises RANGING_FAILED
and ends in LOST with the EqD it had, a held claim queued and an EQD offered where the premises unit was sent another, or, for a
record that never served, in FREE. That the claim refresh starts at 4,000 although the outbox refuses the claim is the model's
choice (log entry 11). An accepted attempt whose final EqD lies outside 0..Teq raises OUT_OF_REACH, and the record retires or,
having never served, is freed. Findings for a record with no attempt pending change nothing. -/
def Obligations.RangingFailureIsCounted : Prop :=
  ∀ n u found s p g, s.held = false → findPlan n s = some p →
    p.grants.find? (fun g => g.kind == .ranging && g.unit == u.val) = some g →
    ((getE u s).attemptPending = false → exec (.rangingAttempt n u found) s = .next s)
    ∧ ((getE u s).attemptPending = true → (getU u s).state = .ranging →
        (∀ b, found = some b → ¬RangingAccepted u g.start b) →
        ∃ t, exec (.rangingAttempt n u found) s = .next t ∧ (getE u t).attemptPending = false ∧ OtherUnitsSame u s t
          ∧ ((getU u s).attempts < 3 → getU u t = { getU u s with attempts := (getU u s).attempts + 1 }
              ∧ t.ec.rangingQueue = s.ec.rangingQueue.filter (· ≠ u) ++ [u] ∧ t.sbp = s.sbp ∧ t.tli = s.tli)
          ∧ (3 ≤ (getU u s).attempts → OccurredOnce .rangingFailed s t ∧ u ∉ t.ec.rangingQueue
              ∧ ((getU u s).returning = true → (getU u t).state = .lost ∧ (getU u t).eqd = (getU u s).eqd
                  ∧ (getU u t).provEqd = none ∧ (getU u t).lostHold = 240000 ∧ (getU u t).poll = 64
                  ∧ (getU u t).attempts = 0 ∧ (getU u t).credit = (getU u s).credit
                  ∧ (getU u t).report = (getU u s).report ∧ (getU u t).outstanding = (getU u s).outstanding
                  ∧ (getU u t).claimRefresh = 4000
                  ∧ (∀ x, (getU u s).serial = some x → OutboxRoom 2 s → InOutbox (.claim x (getU u s).level .held u) t)
                  ∧ ∀ q, (getU u s).eqd = some q →
                    ((getU u s).provEqd ≠ some q → s.tli.queue.length < 64 → (getU u t).corrHold = 4
                        ∧ t.tli.queue.Perm (⟨.eqd u q, .ec, .plain⟩ :: s.tli.queue))
                    ∧ ((getU u s).provEqd = some q ∨ 64 ≤ s.tli.queue.length →
                        t.tli = s.tli ∧ (getU u t).corrHold = (getU u s).corrHold))
              ∧ ((getU u s).returning = false → FreedDirectly u s t)))
    ∧ (∀ b x prov, found = some b → RangingAccepted u g.start b → (getE u s).attemptPending = true →
        (getU u s).state = .ranging → (getU u s).serial = some x → (getU u s).provEqd = some prov →
        ((prov : Int) - burstDelta g.start b < 0 ∨ (teq s.sc.reach : Int) < (prov : Int) - burstDelta g.start b) →
        ∃ t, exec (.rangingAttempt n u found) s = .next t ∧ OccurredOnce .outOfReach s t ∧ OtherUnitsSame u s t
          ∧ t.ec.permits = s.ec.permits ∧ (getE u t).attemptPending = false
          ∧ ((getU u s).returning = true → LeftService u s t)
          ∧ ((getU u s).returning = false → FreedDirectly u s t
              ∧ (OutboxRoom 3 s → InOutbox (.claim x (getU u s).level .released u) t)))

/-- R51, R161. The claim refresh of a serving record runs out: a held claim with the level average is queued and the countdown
starts again at 4,000, whether or not the outbox takes the claim. A lost released claim that has come due is offered again unless
the serial is held again; a lost claiming claim is offered again while its record still waits on it. -/
def Obligations.ClaimNoticesAreQueuedAgain : Prop :=
  (∀ u s x, s.held = false → serves (getU u s) = true → (getU u s).claimRefresh = 0 → (getU u s).serial = some x →
    ∃ t, exec (.claimRefreshExpiry u) s = .next t ∧ getU u t = { getU u s with claimRefresh := 4000 } ∧ OtherUnitsSame u s t
      ∧ (OutboxRoom 1 s → InOutbox (.claim x (getU u s).level .held u) t ∧ t.alarms = s.alarms))
  ∧ (∀ x s c, s.held = false → s.ec.lostClaims.find? (fun c => c.serial == x && c.due) = some c →
    ∃ t, exec (.claimReoffer x) s = .next t ∧ t.ut = s.ut
      ∧ (OutboxRoom 1 s → t.ec.lostClaims = s.ec.lostClaims.erase c)
      ∧ (c.kind = .released → findUnit x s = none → OutboxRoom 1 s → InOutbox (.claim x c.level .released c.owner) t)
      ∧ (c.kind = .released → findUnit x s ≠ none → t.sbp = s.sbp)
      ∧ (c.kind = .claiming → (getU c.owner s).state = .claiming → (getU c.owner s).settleStarted = false →
          (getE c.owner s).claimRef = some c.ref → (getU c.owner s).serial = some x → OutboxRoom 1 s →
          InOutbox (.claim x (getU c.owner s).level .claiming c.owner) t ∧ (getE c.owner t).claimRef = some s.sbp.nextRef)
      ∧ (c.kind = .claiming → (getU c.owner s).state ≠ .claiming ∨ (getU c.owner s).settleStarted = true → t.sbp = s.sbp))

/-! ### Bursts -/

/-- R94, R96, R97, R98, R33, R66, R106, R108, R137. A VALID burst on a record in ACTIVE, LOST or RANGING: report, outstanding, silent
count, streak and level average are set from it, a LOST record returns to ACTIVE, its data bytes go to the backhaul and are counted
in the band, as excess beyond four bytes a committed grain. In ACTIVE and LOST a timing error of 9 to 64 bits is corrected: the EqD
less δ, held within 0..Teq, is offered as an EQD and, once taken, held for four rounds, and an edge of the reach raises REACH_EDGE;
in RANGING the error is discarded. On a RETIRING record O falls and the bytes are delivered unbilled; on a FREE or CLAIMING one
nothing follows. -/
def Obligations.ValidBurstServesTheRecord : Prop :=
  ∀ n u b s g, s.held = false → AwaitsFindings n u g s → ValidOn g b →
    ∃ t, exec (.burstClassify n u (some b)) s = .next t ∧ OtherUnitsSame u s t
      ∧ ((getU u s).state = .free ∨ (getU u s).state = .claiming → t = { s with gs := t.gs })
      ∧ ((getU u s).state ≠ .free → (getU u s).state ≠ .claiming →
          (b.header.dlen.toNat = 0 → t.tli.upstream = s.tli.upstream)
          ∧ (0 < b.header.dlen.toNat →
              t.tli.upstream = s.tli.upstream ++ [⟨u.val, b.payload.take b.header.dlen.toNat⟩])
          ∧ (getU u t).outstanding = (getU u s).outstanding - (g.pc + g.pe))
      ∧ ((getU u s).state = .retiring →
          getU u t = { getU u s with outstanding := (getU u s).outstanding - (g.pc + g.pe) }
          ∧ (getA u t).live = (getA u s).live ∧ t.tli.queue = s.tli.queue ∧ t.alarms = s.alarms)
      ∧ (onTree (getU u s) = true →
          (getU u t).report = b.header.report.toNat ∧ (getU u t).silent = 0 ∧ (getU u t).streak = 0
          ∧ ((getU u t).level : Int) = (getU u s).level + ((meanLevel b.preamble : Int) - (getU u s).level) / 8
          ∧ (getU u t).credit = (getU u s).credit ∧ (getU u t).serial = (getU u s).serial
          ∧ (b.header.dlen.toNat = 0 → (getA u t).live = (getA u s).live)
          ∧ (0 < b.header.dlen.toNat →
              (getA u t).live.up.get s.ucb.band
                = min 281474976710655 ((getA u s).live.up.get s.ucb.band + b.header.dlen.toNat)
              ∧ (getA u t).live.excess
                = min 281474976710655 ((getA u s).live.excess + (b.header.dlen.toNat - min b.header.dlen.toNat (4 * g.pc)))
              ∧ (getA u t).live.busy = min 281474976710655 ((getA u s).live.busy
                + (if g.busy then b.header.dlen.toNat - min b.header.dlen.toNat (4 * g.pc) else 0))
              ∧ (getA u t).live.down = (getA u s).live.down))
      ∧ ((getU u s).state = .ranging → (getU u t).state = .ranging ∧ (getU u t).eqd = (getU u s).eqd
          ∧ (getU u t).corrHold = (getU u s).corrHold ∧ t.tli.queue = s.tli.queue
          ∧ getK .reachEdge t = getK .reachEdge s)
      ∧ (serves (getU u s) = true → (getU u t).state = .active
          ∧ ((getU u s).state = .lost → (getU u t).lostHold = 0 ∧ (getU u t).poll = 8)
          ∧ ∀ q, (getU u s).eqd = some q →
            let d := burstDelta g.start b
            let moved := (q : Int) - d
            let corrects := 9 ≤ d.natAbs ∧ (getU u s).corrHold = 0 ∧ ∀ y ∈ s.tli.queue, isEqdFor u y.order = false
            ∃ new : Nat, (moved < 0 → new = 0) ∧ (0 ≤ moved → moved ≤ teq s.sc.reach → (new : Int) = moved)
              ∧ ((teq s.sc.reach : Int) < moved → new = teq s.sc.reach)
              ∧ (corrects → new ≠ q → s.tli.queue.length < 64 → (getU u t).eqd = some new ∧ (getU u t).corrHold = 4
                  ∧ t.tli.queue.Perm (⟨.eqd u new, .ec, .plain⟩ :: s.tli.queue))
              ∧ (¬corrects ∨ new = q ∨ 64 ≤ s.tli.queue.length → (getU u t).eqd = some q
                  ∧ (getU u t).corrHold = (getU u s).corrHold ∧ t.tli.queue = s.tli.queue)
              ∧ (corrects → (moved < 0 ∨ (teq s.sc.reach : Int) < moved) → OccurredOnce .reachEdge s t)
              ∧ (¬corrects ∨ (0 ≤ moved ∧ moved ≤ teq s.sc.reach) → getK .reachEdge t = getK .reachEdge s))

/-- R94, R99, R100, R102, R106, R113, R31. A grant that no delimiter answers, or a burst in its place that fails a check: on a record
in ACTIVE, LOST or RANGING O falls, and the silent count rises when the last dark judgement was clear, or the interfered count when
it was lit; the 16th silent grant of an ACTIVE record makes it LOST; on a RETIRING record O alone falls, and on a FREE or CLAIMING
one nothing. A burst of another unit does the same, and a tail event is charged to the unit it names, if that serves. -/
def Obligations.FailedGrantCountsSilence : Prop :=
  (∀ n u found s g, s.held = false → AwaitsFindings n u g s →
    ((∀ b, found = some b → ¬DelimiterIn g.start g.length b) ∨ ∃ b, found = some b ∧ ErroredOn g b) →
    ∃ t, exec (.burstClassify n u found) s = .next t ∧ GrantFailed u g s t ∧ OtherUnitsSame u s t
      ∧ ((getU u s).state ≠ .active ∨ s.lm.lastDark = true ∨ (getU u s).silent < 15 → t.alarms = s.alarms))
  ∧ (∀ n u b s g, s.held = false → AwaitsFindings n u g s → WrongUnitOn g b →
    ∃ t, exec (.burstClassify n u (some b)) s = .next t ∧ GrantFailed u g s t
      ∧ (∀ w : UnitNo, w ≠ u → b.header.unit.toNat ≠ w.val →
          getU w t = getU w s ∧ (getA w t).live = (getA w s).live ∧ (getA w t).takeNo = (getA w s).takeNo)
      ∧ ∀ v : UnitNo, b.header.unit.toNat = v.val →
        (serves (getU v s) = false → getU v t = getU v s)
        ∧ (serves (getU v s) = true → (getU v s).tailSpan < 64 →
          ((getU v s).tailEvents < 3 → getU v t = charged (getU v s))
          ∧ (∀ x, (getU v s).tailEvents = 3 → (getU v s).serial = some x → FourthTail v x s t)))

/-- R94, R104, R105, R106. A burst more than 64 bits from its place: O falls, MISALIGNED occurs, the streak rises, and a streak of 2
puts a record in ACTIVE or LOST back to ranging with the EqD it has; one in RANGING stays there. The silent and interfered counts
stand. On a RETIRING record O alone falls, and on a FREE or CLAIMING one nothing. That a record whose streak stands at 2 already is
ranged again too is the model's reading (log entry 13). -/
def Obligations.MisalignedBurstRangesAgain : Prop :=
  ∀ n u b s g, s.held = false → AwaitsFindings n u g s → DelimiterIn g.start g.length b →
    (headerOk b.header = false ∨ b.header.unit.toNat = u.val) → 64 < (burstDelta g.start b).natAbs →
    ∃ t, exec (.burstClassify n u (some b)) s = .next t
      ∧ (getA u t).live = (getA u s).live ∧ t.bm = s.bm ∧ t.tli = s.tli ∧ OtherUnitsSame u s t
      ∧ ((getU u s).state = .free ∨ (getU u s).state = .claiming → t = { s with gs := t.gs })
      ∧ ((getU u s).state = .retiring →
          getU u t = { getU u s with outstanding := (getU u s).outstanding - (g.pc + g.pe) } ∧ t.alarms = s.alarms)
      ∧ (onTree (getU u s) = true → (getU u t).outstanding = (getU u s).outstanding - (g.pc + g.pe)
          ∧ (getU u t).streak = min 2 ((getU u s).streak + 1) ∧ (getU u t).silent = (getU u s).silent
          ∧ (getU u t).report = (getU u s).report ∧ (getU u t).level = (getU u s).level ∧ OccurredOnce .misaligned s t)
      ∧ ((getU u s).state = .ranging → (getU u t).state = .ranging ∧ (getU u t).provEqd = (getU u s).provEqd
          ∧ t.ec.rangingQueue = s.ec.rangingQueue)
      ∧ (serves (getU u s) = true →
          ((getU u s).streak = 0 → (getU u t).state = (getU u s).state)
          ∧ (1 ≤ (getU u s).streak → RangesAgain u (getU u s).eqd s t))

/-! ### The Light Monitor -/

/-- R111, R117, R118, R121, R70. A dark sample becomes the last dark judgement and ends its arrival round's plan. In WATCH a sample
counts unless counting from is held or a round that its own does not reach, and the lit run counts it; at the lit count the machine
goes to CONFIRM: HUSH_ALL is offered and, once taken, every record on the tree is hushed. Outside SERVING the run stays 0, and
HOLDOFF does nothing with it. That a round counts as reached within half the range of the round number, and that the first sample
that counts sets counting from to any, is the model's reading (log entry 12). -/
def Obligations.DarkSampleDrivesTheSearch : Prop :=
  ∀ n readings s, s.held = false →
    let counts := s.lm.iso.countFrom = .any ∨ ∃ c, s.lm.iso.countFrom = .fromRound c ∧ (n + 65536 - c % 65536) % 65536 < 32768
    ∃ t, exec (.darkSample n readings) s = .next t
      ∧ (t.lm.lastDark = true ↔ LitOver readings s) ∧ t.gs.plans = s.gs.plans.filter (fun p => p.round ≠ n)
    ∧ (s.lm.iso.phase = .watch → s.sc.phase = .serving → ¬counts → t.lm.iso = s.lm.iso ∧ t.ut = s.ut ∧ t.tli = s.tli)
    ∧ (s.lm.iso.phase = .watch → s.sc.phase = .serving → counts → t.lm.iso.countFrom = .any
        ∧ (¬LitOver readings s → t.lm.iso.phase = .watch ∧ t.lm.iso.litRun = 0 ∧ t.ut = s.ut ∧ t.tli = s.tli)
        ∧ (LitOver readings s → s.lm.iso.litRun + 1 < (inForce s).litCount →
            t.lm.iso.phase = .watch ∧ t.lm.iso.litRun = s.lm.iso.litRun + 1 ∧ t.ut = s.ut ∧ t.tli = s.tli)
        ∧ (LitOver readings s → (inForce s).litCount ≤ s.lm.iso.litRun + 1 →
            t.lm.iso.phase = .confirm ∧ t.lm.iso.litRun = 0
            ∧ (s.tli.queue.length < 64 → urgentOrders t = urgentOrders s ++ [.hushAll] ∧ t.lm.iso.step = .toCarry
                ∧ t.lm.iso.hushedSet = allUnits.filter (fun u => onTree (getU u s))
                ∧ ∀ u, getU u t = if onTree (getU u s) then { getU u s with hush := true } else getU u s)
            ∧ (64 ≤ s.tli.queue.length → t.tli = s.tli ∧ t.ut = s.ut ∧ t.lm.iso.step = .waiting)))
    ∧ (s.lm.iso.phase = .watch → s.sc.phase ≠ .serving → t.lm.iso.phase = .watch ∧ t.lm.iso.litRun = 0 ∧ t.ut = s.ut)
    ∧ (s.lm.iso.phase = .holdoff → t.lm.iso = s.lm.iso ∧ t.ut = s.ut ∧ t.tli = s.tli)

/-- R114, R118, R120 and R122 to R128. A test reads the dark samples of rounds k + 8 to k + 11 and gives lit when two or more of the
four were lit. The result of a CONFIRM test is UNLOCATED, UNENROLLED or the first BISECT step; that of a BISECT test condemns the one
unit speaking, which retires it or, if it has never served, frees it, or halves the suspects, or is UNENROLLED. Each verdict makes
its closing offers, and counting from is held until they are carried. -/
def Obligations.IsolationTestGivesItsResult : Prop :=
  ∀ n readings s k, s.held = false → (LitOver readings s → k = 1) → (¬LitOver readings s → k = 0) →
    s.lm.iso.step = .settling ∨ s.lm.iso.step = .sampling →
    8 ≤ roundsFrom s.lm.iso.carriage n → roundsFrom s.lm.iso.carriage n ≤ 11 →
    let m := s.lm.iso
    let c := m.hushedSet.filter (fun u => onTree (getU u s))
    let d := m.cand.filter (fun u => u ∉ m.speak)
    ∃ t, exec (.darkSample n readings) s = .next t
      ∧ (m.phase = .confirm ∨ m.phase = .bisect → m.samples < 3 → t.lm.iso.phase = m.phase ∧ t.lm.iso.step = .sampling
          ∧ t.lm.iso.samples = m.samples + 1 ∧ t.lm.iso.litSamples = m.litSamples + k ∧ t.ut = s.ut ∧ t.tli = s.tli)
      ∧ (m.phase = .confirm → m.samples = 3 → 2 ≤ m.litSamples + k → UnlocatedVerdict s t)
      ∧ (m.phase = .confirm → m.samples = 3 → m.litSamples + k < 2 → c = [] → UnenrolledVerdict s t)
      ∧ (m.phase = .confirm → m.samples = 3 → m.litSamples + k < 2 → c ≠ [] →
          t.lm.iso.phase = .bisect ∧ t.lm.iso.cand = c ∧ t.lm.iso.speak = c.take ((c.length + 1) / 2) ∧ t.lm.iso.hush = []
          ∧ (s.tli.queue.length + (c.length + 1) / 2 ≤ 64 →
              urgentOrders t = urgentOrders s ++ (c.take ((c.length + 1) / 2)).map .speakUnit))
      ∧ (∀ u x, m.phase = .bisect → m.samples = 3 → 2 ≤ m.litSamples + k → m.speak = [u] → (getU u s).serial = some x →
          onTree (getU u s) = true → OtherUnitsSame u s t ∧ isBarred x t = true
          ∧ (inService (getU u s) = true → LeftService u s t ∧ (getU u t).barSent = true
              ∧ (m.closing = [] → s.tli.queue.length + 2 ≤ 64 → urgentOrders t = urgentOrders s ++ [.barSerial x, .speakAll]))
          ∧ (neverServed (getU u s) = true → FreedDirectly u s t
              ∧ (m.closing = [] → s.tli.queue.length + 3 ≤ 64 → urgentOrders t = urgentOrders s ++ [.barSerial x, .speakAll]))
          ∧ OccurredOnce .rogueCondemned s t ∧ t.lm.iso.phase = .watch ∧ t.lm.iso.litRun = 0 ∧ t.lm.iso.countFrom = .held
          ∧ (m.closing = [] → s.tli.queue.length = 64 →
              (∀ q ∈ s.tli.queue, isAssignFor u q.order = false ∧ isEqdFor u q.order = false) →
              urgentOrders t = urgentOrders s ∧ t.lm.iso.closing = [⟨[.barSerial x, .speakAll], .all⟩]))
      ∧ (m.phase = .bisect → m.samples = 3 → 2 ≤ m.litSamples + k → 2 ≤ m.speak.length →
          t.lm.iso.phase = .bisect ∧ t.lm.iso.cand = m.speak ∧ t.lm.iso.speak = m.speak.take ((m.speak.length + 1) / 2)
          ∧ t.lm.iso.hush = m.speak.drop ((m.speak.length + 1) / 2)
          ∧ (s.tli.queue.length + m.speak.length / 2 ≤ 64 →
              urgentOrders t = urgentOrders s ++ (m.speak.drop ((m.speak.length + 1) / 2)).map .hushUnit
              ∧ ∀ u ∈ m.speak.drop ((m.speak.length + 1) / 2), (getU u t).hush = true))
      ∧ (m.phase = .bisect → m.samples = 3 → m.litSamples + k < 2 → d = [] → UnenrolledVerdict s t)
      ∧ (m.phase = .bisect → m.samples = 3 → m.litSamples + k < 2 → d ≠ [] →
          t.lm.iso.phase = .bisect ∧ t.lm.iso.cand = d ∧ t.lm.iso.speak = d.take ((d.length + 1) / 2) ∧ t.lm.iso.hush = [])

/-- R112, R113, R115. A lit guard is charged to the unit whose data or report-only grant ends on the grain before, or else to the
grant's own; the charge is counted before the own span advances. A charge to a record out of service changes nothing. That a span
which comes to 64 stands there with its events until TAIL_SPAN_EXPIRY takes it is the model's choice (log entry 22). -/
def Obligations.GuardSampleChargesATail : Prop :=
  ∀ n u v readings s p g, s.held = false → findPlan n s = some p → unitGrant u p = some g → g.guarded = false →
    ((∃ q, predecessor g.start p = some q ∧ q.unit = v.val) ∨ (predecessor g.start p = none ∧ v = u)) →
    (getU u s).tailSpan < 64 → (getU v s).tailSpan < 64 →
    let advance := fun r : UnitRecord => if serves r = true ∧ 1 ≤ r.tailEvents then { r with tailSpan := r.tailSpan + 1 } else r
    ∃ t, exec (.guardSample n u readings) s = .next t
      ∧ (¬LitOver readings s ∨ serves (getU v s) = false →
          getU u t = advance (getU u s) ∧ OtherUnitsSame u s t ∧ t.sbp = s.sbp ∧ t.alarms = s.alarms)
      ∧ (LitOver readings s → serves (getU v s) = true → (getU v s).tailEvents < 3 →
          (v = u → getU u t = advance (charged (getU u s)))
          ∧ (v ≠ u → getU v t = charged (getU v s) ∧ getU u t = advance (getU u s))
          ∧ (∀ w, w ≠ u → w ≠ v → getU w t = getU w s) ∧ t.sbp = s.sbp ∧ t.alarms = s.alarms)

/-- R114, R116, R132. The fourth tail event of a serving record: TAIL_RERANGE occurs and the record is ranged again with the EqD
it has; at the third tail re-range it is condemned instead, with a BAR_SERIAL standing alone, a bar of its serial and
ROGUE_CONDEMNED. -/
def Obligations.FourthTailEventRangesOrCondemns : Prop :=
  ∀ n u readings s p g x, s.held = false → findPlan n s = some p → unitGrant u p = some g → g.guarded = false →
    predecessor g.start p = none → LitOver readings s → serves (getU u s) = true → (getU u s).tailEvents = 3 →
    (getU u s).tailSpan < 64 → (getU u s).serial = some x →
    ∃ t, exec (.guardSample n u readings) s = .next t ∧ FourthTail u x s t ∧ OtherUnitsSame u s t

/-- R119, R129, R130. The end of HOLDOFF, the clearing of the hush flags of carried steps, a refused step or closing offer offered
again, taken whole where the queue has room for all of it and otherwise refused whole, and the removal of a record from the search.
That HUSH_FLAGS_CLEARED takes every clearing put down, whether or not its round-marker event has come, is the model's reading (log
entry 17), and so is that the SPEAK_ALL of an UNLOCATED verdict which a removal brings is offered at once, even while a step that
was taken is still queued (log entry 18). That a removal leaves the flags a taken step is to clear as they are is the model's
choice (log entry 26). -/
def Obligations.SearchOffersAndClears : Prop :=
  (∀ s, s.held = false → s.lm.iso.phase = .holdoff → s.lm.iso.holdoff = 0 → ∃ t, exec .holdoffExpiry s = .next t
      ∧ t.lm.iso.phase = .watch ∧ t.lm.iso.litRun = 0 ∧ t.lm.iso.cause = .none ∧ t.ut = s.ut
      ∧ (s.lm.iso.cause = .unenrolled → s.lm.iso.closing = [] → s.tli.queue.length < 64 →
          urgentOrders t = urgentOrders s ++ [.speakAll] ∧ t.lm.iso.countFrom = .held)
      ∧ (s.lm.iso.cause = .unlocated → t.tli = s.tli
          ∧ (s.lm.iso.closing = [] → s.lm.iso.closingOut = 0 → t.lm.iso.countFrom = .any)))
  ∧ (∀ s, s.held = false → ∃ t, exec .hushFlagsCleared s = .next t ∧ t.lm.iso.clearings = [] ∧ t.tli = s.tli ∧ t.sbp = s.sbp
      ∧ ∀ u, getU u t
          = { getU u s with hush := (getU u s).hush && !s.lm.iso.clearings.any (fun c => c.clears.covers u) })
  ∧ (∀ s, s.held = false → s.lm.iso.stepDue = true → s.lm.iso.step = .waiting → stepOrders s.lm.iso.stepKind s.lm.iso ≠ [] →
      ∃ t, exec .stepReoffer s = .next t
        ∧ (s.tli.queue.length + (stepOrders s.lm.iso.stepKind s.lm.iso).length ≤ 64 →
            urgentOrders t = urgentOrders s ++ stepOrders s.lm.iso.stepKind s.lm.iso ∧ t.lm.iso.step = .toCarry)
        ∧ (64 < s.tli.queue.length + (stepOrders s.lm.iso.stepKind s.lm.iso).length →
            t.tli = s.tli ∧ t.ut = s.ut ∧ t.lm.iso.step = .waiting ∧ t.lm.iso.stepDue = false))
  ∧ (∀ s o, s.held = false → s.lm.iso.stepDue = true → s.lm.iso.step ≠ .waiting → s.lm.iso.closing = [o] →
      (∀ y ∈ o.orders, orderGroup y = 1) → ∃ t, exec .stepReoffer s = .next t ∧ t.ut = s.ut
        ∧ (s.tli.queue.length + o.orders.length ≤ 64 →
            urgentOrders t = urgentOrders s ++ o.orders ∧ t.lm.iso.closing = [] ∧ t.lm.iso.closingOut = s.lm.iso.closingOut + 1)
        ∧ (64 < s.tli.queue.length + o.orders.length → t.tli = s.tli ∧ t.lm.iso.closing = [o]))
  ∧ ∀ u s,
    let m := s.lm.iso
    let t := isoRemove u s
    let c := m.cand.filter (fun v => v ≠ u)
    let l := m.speak.filter (fun v => v ≠ u)
    (m.phase = .watch ∨ m.phase = .holdoff → t = s)
    ∧ (m.phase = .confirm ∨ (m.phase = .bisect ∧ c ≠ [] ∧ (l ≠ [] ∨ m.speak = [])) →
        t = { s with lm := { s.lm with iso := { m with hushedSet := m.hushedSet.filter (fun v => v ≠ u), cand := c, speak := l,
                                                       hush := m.hush.filter (fun v => v ≠ u) } } })
    ∧ (m.phase = .bisect → c ≠ [] → l = [] → m.speak ≠ [] →
        t.lm.iso.phase = .bisect ∧ t.lm.iso.cand = c ∧ t.lm.iso.speak = c.take ((c.length + 1) / 2) ∧ t.lm.iso.hush = []
        ∧ t.ut = s.ut
        ∧ (m.step = .toCarry → t.tli = s.tli ∧ t.lm.iso.step = .toCarry ∧ t.lm.iso.restep = true)
        ∧ (m.step ≠ .toCarry → s.tli.queue.length + (c.length + 1) / 2 ≤ 64 →
            urgentOrders t = urgentOrders s ++ (c.take ((c.length + 1) / 2)).map .speakUnit ∧ t.lm.iso.step = .toCarry)
        ∧ (m.step ≠ .toCarry → 64 < s.tli.queue.length + (c.length + 1) / 2 → t.tli = s.tli ∧ t.lm.iso.step = .waiting))
    ∧ (m.phase = .bisect → c = [] → UnlocatedVerdict s t)

/-! ### The Usage Counter Bank -/

/-- R141, R142. TAKE copies and zeroes the live set of every record on the tree without a snapshot, under the next take number,
leaves every other account, and is answered DONE with the counts of taken and skipped. -/
def Obligations.TakeCopiesTheLiveSets : Prop :=
  ∀ h s, s.held = false → Heeded h s → s.sc.phase = .serving ∨ s.sc.phase = .restarting →
    ∃ t, exec (.take h) s = .next (answered h 7 .done
        (.take (allUnits.filter (fun u => onTree (getU u s) && (getA u s).snapshot.isNone)).length
          (allUnits.filter (fun u => (onTree (getU u s) && (getA u s).snapshot.isSome) || (getU u s).state == .retiring)).length) t)
      ∧ t.ut = s.ut ∧ t.ucb.band = s.ucb.band
      ∧ ∀ u,
        (onTree (getU u s) = true → (getA u s).snapshot = none →
            (getA u t).live = CounterSet.zero ∧ (getA u t).takeNo = ((getA u s).takeNo + 1) % 65536
            ∧ ∃ p, (getA u t).snapshot = some p ∧ p.counters = (getA u s).live ∧ p.takeNo = (getA u t).takeNo
                ∧ p.isFinal = false ∧ p.disputed = (getU u s).disputed ∧ p.closePending = false)
        ∧ (onTree (getU u s) = false ∨ (getA u s).snapshot ≠ none →
            (getA u t).live = (getA u s).live ∧ (getA u t).takeNo = (getA u s).takeNo
            ∧ (getA u t).snapshot.map Snapshot.contents = (getA u s).snapshot.map Snapshot.contents)

/-- R136. BAND sets the current band to 0..3 and is otherwise answered BAD_FIELD. -/
def Obligations.BandSetsTheCurrentBand : Prop :=
  ∀ h k s, Taken h s →
    (∀ b : Band, k.toNat = b.val →
        exec (.band h k) s = .next (answered h 6 .done .none { s with ucb := { s.ucb with band := b } }))
    ∧ (4 ≤ k.toNat → exec (.band h k) s = .next (answered h 6 .badField .none s))

/-- R145. A due run of pacing, with room in the outbox, takes the unqueued snapshots in ring order from the one after the pacing
pointer until four notices are out: each has its usage notice in the outbox, in that order, and the pointer becomes the last one's
unit. Without a due run the command changes nothing. -/
def Obligations.PacingQueuesUpToFour : Prop :=
  ∀ s, s.held = false →
    (s.ucb.paceDue = false → exec .usagePacingRetry s = .next s)
    ∧ (s.ucb.paceDue = true → s.ucb.out ≤ 4 → usageHeld s.sbp.outbox ≤ s.ucb.out → OutboxRoom 4 s →
      let ring := (List.finRange 64).map (fun i => s.ucb.pacePtr + 1 + i)
      let taken := (ring.filter (fun u => unqueued (getA u s))).take (4 - s.ucb.out)
      ∃ t, exec .usagePacingRetry s = .next t ∧ t.ut = s.ut ∧ t.alarms = s.alarms ∧ t.ucb.paceDue = false
        ∧ t.ucb.out = s.ucb.out + taken.length ∧ t.ucb.pacePtr = taken.getLast?.getD s.ucb.pacePtr
        ∧ (t.ucb.out = 4 ∨ ∀ u, unqueued (getA u t) = false)
        ∧ (∀ u, (getA u t).snapshot.map Snapshot.contents = (getA u s).snapshot.map Snapshot.contents)
        ∧ (∀ u, unqueued (getA u t) = true ↔ unqueued (getA u s) = true ∧ u ∉ taken)
        ∧ (∀ u ∈ taken, ∃ p, (getA u t).snapshot = some p ∧ p.notice = .queued)
        ∧ (t.sbp.outbox.filter (fun m => m.body.cls == 6)).map (·.body)
            = (s.sbp.outbox.filter (fun m => m.body.cls == 6)).map (·.body) ++ taken.map (fun u => .usage u none))

/-! ### The District View -/

/-- R152, R153, R154, R155, R156, R90, R181. A peer's load notice sets its entry; an interval close sets the own entry to the
floor of the mean, ages the peer entries, and queues a load notice; an entry that reaches age 4 goes (LOAD_ENTRY_AGE_OUT takes it
with the close at hand, log entry 9). F is recomputed each time. -/
def Obligations.LoadsSetTheDistrictFactor : Prop :=
  (∀ h b k s, s.held = false → PeerNotice h k s → ∃ t, exec (.loadNotice h b) s = .next t ∧ FactorIsCurrent t
      ∧ t = { s with dv := { s.dv with loads := s.dv.loads.set k ⟨min 12484 b.load.toNat, 0, true⟩, factor := t.dv.factor } })
  ∧ (∀ h b s, s.held = false → (16 ≤ h.sender.val ∨ h.sender.val = s.sc.station.val) → exec (.loadNotice h b) s = .next s)
  ∧ (∀ s, s.held = false → s.gs.intervalCount = 64 → ∃ t, exec .intervalClose s = .next t ∧ FactorIsCurrent t
      ∧ t.dv.loads.get s.sc.station = ⟨s.gs.intervalSum / 64, 0, true⟩
      ∧ (∀ k, k ≠ s.sc.station → t.dv.loads.get k =
          (if (s.dv.loads.get k).present = true then
            (if (s.dv.loads.get k).age < 3 then { s.dv.loads.get k with age := (s.dv.loads.get k).age + 1 } else ⟨0, 0, false⟩)
          else s.dv.loads.get k))
      ∧ t.gs = { s.gs with intervalSum := 0, intervalCount := 0 } ∧ t.ut = s.ut
      ∧ (OutboxRoom 1 s → InOutbox (.load
          { load := s.gs.intervalSum / 64, undeliverable := s.tli.undeliverable, interfered := s.bm.interfered,
            lineFaults := s.sbp.lineFaults, isolation := s.lm.iso.phase,
            active := (allUnits.filter (fun u => (getU u s).state == .active)).length }) t))
  ∧ (∀ k s, s.held = false → s.gs.intervalCount = 64 → k ≠ s.sc.station → (s.dv.loads.get k).present = true →
      3 ≤ (s.dv.loads.get k).age → ∃ t, exec (.loadEntryAgeOut k) s = .next t ∧ FactorIsCurrent t
        ∧ t = { s with dv := { s.dv with loads := s.dv.loads.set k ⟨0, 0, false⟩, factor := t.dv.factor } })

/-- R157, R158. A claiming or held claim of a peer joins the end of the claims list: in place of its own key, or in a free place,
or in place of the oldest claiming entry, or else of the oldest entry, with the overflow count raised. -/
def Obligations.PeerClaimIsStored : Prop :=
  ∀ h x level k peer s, s.held = false → PeerNotice h peer s → level.toNat ≤ 1023 →
    ∃ t, exec (.claimNotice h x level k) s = .next t
      ∧ ((∃ e ∈ s.dv.claims, e.serial = x ∧ e.peer = peer) →
          t.dv.claims = s.dv.claims.filter (fun e => ¬(e.serial = x ∧ e.peer = peer)) ++ [⟨x, peer, level.toNat, k, 0⟩]
          ∧ t.dv.claimsOverflow = s.dv.claimsOverflow)
      ∧ ((∀ e ∈ s.dv.claims, ¬(e.serial = x ∧ e.peer = peer)) → s.dv.claims.length < 32 →
          t.dv.claims = s.dv.claims ++ [⟨x, peer, level.toNat, k, 0⟩] ∧ t.dv.claimsOverflow = s.dv.claimsOverflow)
      ∧ ((∀ e ∈ s.dv.claims, ¬(e.serial = x ∧ e.peer = peer)) → s.dv.claims.length = 32 →
          ∃ l e r, s.dv.claims = l ++ e :: r ∧ t.dv.claims = l ++ r ++ [⟨x, peer, level.toNat, k, 0⟩]
          ∧ (e.kind = .claiming ∧ (∀ y ∈ l, y.kind = .held) ∨ l = [] ∧ ∀ y ∈ s.dv.claims, y.kind = .held)
          ∧ t.dv.claimsOverflow = min 65535 (s.dv.claimsOverflow + 1))
      ∧ (findUnit x s = none → t = { s with dv := t.dv })

/-- R53, R54, R55, R56, R28. How a peer's claim is judged against this station's record for the serial. That a held claim queued in
RANGING leaves the claim refresh at 0 is the model's reading of R28 against R161 (log entry 11). -/
def Obligations.PeerClaimIsJudged : Prop :=
  ∀ h x level k peer s u, s.held = false → PeerNotice h peer s → level.toNat ≤ 1023 → findUnit x s = some u →
    ∃ t, exec (.claimNotice h x level k) s = .next t ∧ OtherUnitsSame u s t ∧ t.ec.permits = s.ec.permits
      ∧ (neverServed (getU u s) = true → k = .claiming →
          (level.toNat < (getU u s).level ∨ ((getU u s).level = level.toNat ∧ s.sc.station < peer)) →
          t.ut = s.ut ∧ t.sbp = s.sbp)
      ∧ (neverServed (getU u s) = true →
          (k = .held ∨ ¬(level.toNat < (getU u s).level ∨ ((getU u s).level = level.toNat ∧ s.sc.station < peer))) →
          FreedDirectly u s t ∧ OccurredOnce .claimYielded s t ∧ ((getU u s).state = .claiming → t.tli = s.tli)
            ∧ (OutboxRoom 3 s → InOutbox (.claim x (getU u s).level .released u) t))
      ∧ (inService (getU u s) = true → k = .claiming → OutboxRoom 1 s →
          (serves (getU u s) = true → getU u t = { getU u s with claimRefresh := 4000 })
          ∧ ((getU u s).state = .ranging → getU u t = getU u s)
          ∧ InOutbox (.claim x (getU u s).level .held u) t)
      ∧ (inService (getU u s) = true → k = .held →
          getU u t = { getU u s with disputed := true } ∧ OccurredOnce .duplicateSerial s t)
      ∧ ((getU u s).state = .retiring → t.ut = s.ut ∧ t.sbp = s.sbp)

/-- R159, R152. A peer's released claim removes its entry for the serial and changes no record; one that is not taken from a peer,
or whose level is above 1023, changes nothing. -/
def Obligations.ReleasedClaimRemovesItsEntry : Prop :=
  ∀ h x level s, s.held = false →
    (∀ peer, PeerNotice h peer s → level.toNat ≤ 1023 → exec (.releasedClaimNotice h x level) s
      = .next { s with dv := { s.dv with claims := s.dv.claims.filter (fun e => ¬(e.serial = x ∧ e.peer = peer)) } })
    ∧ (16 ≤ h.sender.val ∨ h.sender.val = s.sc.station.val ∨ 1023 < level.toNat →
        exec (.releasedClaimNotice h x level) s = .next s)

/-- R162, R163, R164, R165. A peer's bar is stored once and acts on this station's record for the serial: a record that has never
served is freed with BARRED_SEEN, a serving one is disputed with BARRED_IN_SERVICE. A lost bar notice that has come due is offered
again while this station's entry stands. -/
def Obligations.BarsAreStoredAndAct : Prop :=
  (∀ h x reason why peer s, s.held = false → PeerNotice h peer s → (reason = 1 ∧ why = .rogue ∨ reason = 2 ∧ why = .tail) →
    ∃ t, exec (.barNotice h x reason) s = .next t
      ∧ ((∃ b ∈ s.dv.barred, b.serial = x) → t.dv.barred = s.dv.barred ∧ t.dv.evictions = s.dv.evictions)
      ∧ ((∀ b ∈ s.dv.barred, b.serial ≠ x) → s.dv.barred.length < 16 →
          t.dv.barred = s.dv.barred ++ [⟨x, peer, why⟩] ∧ t.dv.evictions = s.dv.evictions)
      ∧ ((∀ b ∈ s.dv.barred, b.serial ≠ x) → 16 ≤ s.dv.barred.length →
          t.dv.barred = s.dv.barred.drop 1 ++ [⟨x, peer, why⟩] ∧ t.dv.evictions = min 65535 (s.dv.evictions + 1))
      ∧ t.ec.permits = s.ec.permits
      ∧ (findUnit x s = none → t = { s with dv := t.dv })
      ∧ ∀ u, findUnit x s = some u → OtherUnitsSame u s t
        ∧ (neverServed (getU u s) = true → FreedDirectly u s t ∧ OccurredOnce .barredSeen s t)
        ∧ (inService (getU u s) = true →
            getU u t = { getU u s with disputed := true } ∧ OccurredOnce .barredInService s t)
        ∧ ((getU u s).state = .retiring → t.ut = s.ut ∧ t.alarms = s.alarms ∧ t.sbp = s.sbp))
  ∧ (∀ h x reason s, s.held = false → reason ≠ 1 → reason ≠ 2 → exec (.barNotice h x reason) s = .next s)
  ∧ (∀ x s b, s.held = false → s.dv.lostBars.find? (fun b => b.serial == x && b.due) = some b →
    ∃ t, exec (.barReoffer x) s = .next t ∧ t.ut = s.ut ∧ t.dv.barred = s.dv.barred
      ∧ ((∃ e ∈ s.dv.barred, e.serial = x ∧ e.origin = s.sc.station) → OutboxRoom 1 s →
          InOutbox (.bar x b.reason) t ∧ t.dv.lostBars = s.dv.lostBars.erase b)
      ∧ ((∀ e ∈ s.dv.barred, ¬(e.serial = x ∧ e.origin = s.sc.station)) →
          t = { s with dv := { s.dv with lostBars := s.dv.lostBars.erase b } }))

/-- R167, R168. A peer's presence notice removes its load and its claims, and is answered with a held claim for each serving
record and a bar for each entry of this station's origin. -/
def Obligations.PresenceNoticeIsAnswered : Prop :=
  ∀ h cause reach peer s, s.held = false → PeerNotice h peer s →
    ∃ t, exec (.presenceNotice h cause reach) s = .next t
      ∧ t.dv.loads = s.dv.loads.set peer ⟨0, 0, false⟩ ∧ FactorIsCurrent t
      ∧ t.dv.claims = s.dv.claims.filter (fun e => e.peer ≠ peer) ∧ t.dv.claimsOverflow = s.dv.claimsOverflow
      ∧ t.dv.barred = s.dv.barred ∧ (∀ u, serves (getU u s) = false → getU u t = getU u s)
      ∧ (s.sbp.outbox.length + (allUnits.filter (fun u => serves (getU u s))).length
            + (s.dv.barred.filter (fun e => e.origin == s.sc.station)).length ≤ 32 →
          t.alarms = s.alarms
          ∧ (∀ u x, serves (getU u s) = true → (getU u s).serial = some x →
              getU u t = { getU u s with claimRefresh := 4000 } ∧ InOutbox (.claim x (getU u s).level .held u) t)
          ∧ ∀ e ∈ s.dv.barred, e.origin = s.sc.station → InOutbox (.bar e.serial e.reason) t)

/-- R166. UNBAR removes the entry for the serial and answers with what is left and the two counts. -/
def Obligations.UnbarRemovesTheEntry : Prop :=
  ∀ h x s, Taken h s →
    let t := { s with dv := { s.dv with barred := s.dv.barred.filter (fun b => b.serial ≠ x) } }
    ((∃ b ∈ s.dv.barred, b.serial = x) → exec (.unbar h x) s = .next
      (answered h 9 .done (.unbar t.dv.barred.length s.dv.claimsOverflow s.dv.evictions) t))
    ∧ ((∀ b ∈ s.dv.barred, b.serial ≠ x) → exec (.unbar h x) s = .next
      (answered h 9 .unknownSerial (.unbar s.dv.barred.length s.dv.claimsOverflow s.dv.evictions) s))

/-! ### The Shelf Bus Port -/

/-- R169, R172, R173, R174 and the formats of 9.8. A notice received whole, on a line that has been quiet since reset release and
while the SBP is not sending, is the command its bytes spell: the bytes of an order, a claim, a bar, a load or a presence notice, with their check, restart the count of
recessive bits and then act as the command with those fields. -/
def Obligations.ReceivedNoticeIsItsCommand : Prop :=
  ∀ s k, s.held = false → (∀ m, s.sbp.slot ≠ some ⟨m, true⟩) → (s.sbp.heardQuiet = true ∨ 12 ≤ k) →
    let v := { s with sbp := { s.sbp with quiet := 0, heardQuiet := true } }
    (∀ h o, isMalformed o = false →
      ∃ t, exec (.noticeReceived ⟨k, true⟩ (noticeBytes 1 h.sender.val h.dest.val (orderBody h.tag o))) s = .next t
        ∧ exec (orderCommand h o) v = .next t)
    ∧ ∀ (h : NoticeHead) (x : Serial) (level : BitVec 16),
      (∀ c : StoredClaim, exec (.noticeReceived ⟨k, true⟩ (noticeBytes 3 h.sender.val h.dest.val
          (beBytes 8 x.toNat ++ beBytes 2 level.toNat ++ beBytes 1 (storedKind c).code))) s = exec (.claimNotice h x level c) v)
      ∧ exec (.noticeReceived ⟨k, true⟩ (noticeBytes 3 h.sender.val h.dest.val
          (beBytes 8 x.toNat ++ beBytes 2 level.toNat ++ beBytes 1 ClaimKind.released.code))) s
          = exec (.releasedClaimNotice h x level) v
      ∧ (∀ reason, exec (.noticeReceived ⟨k, true⟩ (noticeBytes 4 h.sender.val h.dest.val (beBytes 8 x.toNat ++ [reason]))) s
          = exec (.barNotice h x reason) v)
      ∧ (∀ b : LoadBody, exec (.noticeReceived ⟨k, true⟩ (noticeBytes 5 h.sender.val h.dest.val
          (beBytes 2 b.load.toNat ++ beBytes 4 b.undeliverable.toNat ++ beBytes 4 b.interfered.toNat
            ++ beBytes 2 b.lineFaults.toNat ++ [b.isolation, b.active]))) s = exec (.loadNotice h b) v)
      ∧ ∀ cause reach, exec (.noticeReceived ⟨k, true⟩ (noticeBytes 7 h.sender.val h.dest.val [cause, reach])) s
          = exec (.presenceNotice h cause reach) v

/-- R169, R173, R178, R179. What the checks turn away: until the line has been quiet since reset release no notice is received,
and none while the SBP is sending, whose own notice is not counted either; a notice with a start bit missing, one cut short, one with a body over 72 bytes, one whose check fails and one of the wrong length for
its class are counted and discarded; an order for another station is ignored; one from outside the order-source set is counted; an
unknown kind is answered BAD_FIELD; in LISTEN and ENLIST all but SETTINGS and RESTART are answered NOT_READY, and in RESTARTING all
but SETTINGS, TAKE and ALARM_CLEAR BUSY. -/
def Obligations.ChecksTurnNoticesAway : Prop :=
  (∀ k framed bytes s, s.held = false → s.sbp.heardQuiet = false → k < 12 →
    exec (.noticeReceived ⟨k, framed⟩ bytes) s = .next { s with sbp := { s.sbp with quiet := 0 } })
  ∧ (∀ heard bytes s m, s.held = false → s.sbp.slot = some ⟨m, true⟩ →
    exec (.noticeReceived heard bytes) s = .next { s with sbp := { s.sbp with quiet := 0 } })
  ∧ (∀ k s, s.held = false → (∀ m, s.sbp.slot ≠ some ⟨m, true⟩) → (s.sbp.heardQuiet = true ∨ 12 ≤ k) →
    let counted := { s with sbp := { s.sbp with quiet := 0, heardQuiet := true, recvErrors := min 65535 (s.sbp.recvErrors + 1) } }
    (∀ bytes, exec (.noticeReceived ⟨k, false⟩ bytes) s = .next counted)
    ∧ (∀ bytes : List Byte, bytes.length < 5 → exec (.noticeReceived ⟨k, true⟩ bytes) s = .next counted)
    ∧ (∀ b0 b1 b2 (rest : List Byte), rest.length < b2.toNat + 2 →
        exec (.noticeReceived ⟨k, true⟩ (b0 :: b1 :: b2 :: rest)) s = .next counted)
    ∧ (∀ b0 b1 b2 (rest : List Byte), 72 < b2.toNat →
        exec (.noticeReceived ⟨k, true⟩ (b0 :: b1 :: b2 :: rest)) s = .next counted)
    ∧ (∀ b0 b1 (body : List Byte) (c : BitVec 16), body.length ≤ 72 →
        c ≠ crcNotice (b0 :: b1 :: BitVec.ofNat 8 body.length :: body) →
        exec (.noticeReceived ⟨k, true⟩ (b0 :: b1 :: BitVec.ofNat 8 body.length :: (body ++ beBytes 2 c.toNat))) s
          = .next counted)
    ∧ ∀ (cls : Nat) (h : NoticeHead) (body : List Byte), body.length ≤ 72 →
        (cls = 3 ∧ body.length ≠ 11 ∨ cls = 4 ∧ body.length ≠ 9 ∨ cls = 5 ∧ body.length ≠ 14 ∨ cls = 6 ∧ body.length ≠ 72
          ∨ cls = 7 ∧ body.length ≠ 2) →
        exec (.noticeReceived ⟨k, true⟩ (noticeBytes cls h.sender.val h.dest.val body)) s = .next counted)
  ∧ ∀ h o s, s.held = false →
    (h.dest.val ≠ 31 → h.dest.val ≠ s.sc.station.val → exec (orderCommand h o) s = .next s)
    ∧ ((h.dest.val = 31 ∨ h.dest.val = s.sc.station.val) → ¬Heeded h s → exec (orderCommand h o) s
        = .next { s with sbp := { s.sbp with refused := min 65535 (s.sbp.refused + 1) } })
    ∧ (Heeded h s →
      (∀ k, o = .malformed k → exec (orderCommand h o) s = .next (answered h k .badField .none s))
      ∧ ((∀ k, o ≠ .malformed k) → (∀ f, o ≠ .settings f) → o ≠ .restart → (s.sc.phase = .listen ∨ s.sc.phase = .enlist) →
          exec (orderCommand h o) s = .next (answered h o.kindByte .notReady .none s))
      ∧ ((∀ k, o ≠ .malformed k) → (∀ f, o ≠ .settings f) → o ≠ .take → (∀ k, o ≠ .alarmClear k) →
          s.sc.phase = .restarting → exec (orderCommand h o) s = .next (answered h o.kindByte .busy .none s)))

/-- R140, R144, R147, R148, R169, R170, R171, R177, R188. The transmit slot: the SBP counts recessive bit times, and at 12 its
notice contends again, or the head of the outbox enters it with its body fixed, and the start bit restarts the count; a lost
arbitration keeps the notice; a line fault drops it, counts, and leaves what was lost with its producer (R51, R163, R188, R191), a
snapshot with a close pending merged with the live set and final (R147, R148). That a loss after the round-marker event at which a
re-offer came due waits for the next one is log entry 5, and that bits within a notice are left out log entry 16. -/
def Obligations.TransmitSlotHoldsOneNotice : Prop :=
  (∀ k s, s.held = false →
    (k < 12 → exec (.transmitStart k) s = .next { s with sbp := { s.sbp with quiet := k } })
    ∧ (12 ≤ k → s.sbp.slot = none → s.sbp.outbox = [] → exec (.transmitStart k) s
        = .next { s with sbp := { s.sbp with quiet := 12, heardQuiet := true } })
    ∧ (∀ sl, 12 ≤ k → s.sbp.slot = some sl → exec (.transmitStart k) s
        = .next { s with sbp := { s.sbp with quiet := 0, heardQuiet := true, slot := some { sl with sending := true } } })
    ∧ (∀ m rest, 12 ≤ k → s.sbp.slot = none → s.sbp.outbox = m :: rest → ∃ t b, exec (.transmitStart k) s = .next t
        ∧ t.sbp.outbox = rest ∧ t.sbp.slot = some ⟨⟨m.ref, b⟩, true⟩ ∧ t.ut = s.ut
        ∧ t.sbp.quiet = 0 ∧ t.sbp.heardQuiet = true
        ∧ ((∀ u, m.body ≠ .usage u none) → b = m.body ∧ t.ucb = s.ucb)
        ∧ ∀ u x p, m.body = .usage u none → (getU u s).serial = some x → (getA u s).snapshot = some p →
            b = .usage u (some { unit := u, serial := x, takeNo := p.takeNo, isFinal := p.isFinal, disputed := p.disputed,
                                 counters := p.counters })
            ∧ (getA u t).snapshot = some { p with notice := .onLine }))
  ∧ (∀ s m, s.held = false → s.sbp.slot = some ⟨m, true⟩ → exec .arbitrationLost s
      = .next { s with sbp := { s.sbp with slot := some ⟨m, false⟩ } })
  ∧ (∀ s m, s.held = false → s.sbp.slot = some ⟨m, true⟩ → ∃ t, exec .lineFault s = .next t
      ∧ t.sbp.slot = none ∧ t.sbp.lineFaults = min 65535 (s.sbp.lineFaults + 1) ∧ t.ut = s.ut
      ∧ ((∀ u b, m.body ≠ .usage u b) → t.sbp.outbox = s.sbp.outbox ∧ t.ucb = s.ucb)
      ∧ (∀ k c x, m.body = .alarm k c x →
          ((getK k s).raised = true → (getK k s).subject = x →
            getK k t = { getK k s with reoffer :=
              if (getK k s).reoffer = .due ∨ (getK k s).reoffer = .dueAgain then .dueAgain else .waiting })
          ∧ ((getK k s).raised = false ∨ (getK k s).subject ≠ x → t.alarms = s.alarms))
      ∧ (∀ x r, m.body = .bar x r → t.dv.lostBars = s.dv.lostBars ++ [⟨x, r, false⟩])
      ∧ (∀ x l k u, m.body = .claim x l k u → k ≠ .held → t.ec.lostClaims = s.ec.lostClaims ++ [⟨x, l, k, u, m.ref, false⟩])
      ∧ (∀ x l u, m.body = .claim x l .held u → t.ec = s.ec)
      ∧ (∀ c r, m.body = .presence c r → t.sc = { s.sc with presence :=
          if s.sc.presence = .due ∨ s.sc.presence = .dueAgain then .dueAgain else .waiting })
      ∧ (∀ u b p, m.body = .usage u (some b) → (getA b.unit s).snapshot = some p → p.closePending = false →
          ∃ q, (getA b.unit t).snapshot = some q ∧ q.contents = p.contents)
      ∧ (∀ u b p, m.body = .usage u (some b) → (getA b.unit s).snapshot = some p → p.closePending = true → p.notice = .onLine →
          (getU b.unit s).serial = some b.serial → p.takeNo = b.takeNo → MergedFinal b.unit p s t
            ∧ ∃ q, (getA b.unit t).snapshot = some q ∧ q.notice ≠ .onLine))

/-- R36, R52, R146, R148, R177. What the report of a sent notice does: a claiming notice starts its record's claim settle at 80; a
usage notice lets its snapshot go, and if that was the final one frees the record, with 4,000 rounds of cooling and a DROP_UNIT
unless BAR_SERIAL was sent; a close pending makes the final snapshot. Any other notice changes nothing more. -/
def Obligations.SentNoticeReachesItsProducer : Prop :=
  ∀ s m, s.held = false → s.sbp.slot = some ⟨m, true⟩ → ∃ t, exec .noticeSent s = .next t ∧ t.sbp.slot = none
    ∧ (∀ x l u, m.body = .claim x l .claiming u → (getU u s).state = .claiming → (getU u s).settleStarted = false →
        (getE u s).claimRef = some m.ref →
        getU u t = { getU u s with claimSettle := 80, settleStarted := true } ∧ OtherUnitsSame u s t
          ∧ t.sbp.outbox = s.sbp.outbox)
    ∧ (∀ v b p, m.body = .usage v (some b) → (getA b.unit s).snapshot = some p → p.notice = .onLine →
        (getU b.unit s).serial = some b.serial → p.takeNo = b.takeNo →
        OtherUnitsSame b.unit s t
        ∧ (p.isFinal = true →
            getU b.unit t = { UnitRecord.blank with cooling := 4000, dropPending := !(getU b.unit s).barSent,
                                                    dropWait := (getU b.unit t).dropWait }
            ∧ getA b.unit t = Account.blank
            ∧ ((getU b.unit s).barSent = true → t.tli = s.tli ∧ (getU b.unit t).dropWait = .idle)
            ∧ ((getU b.unit s).barSent = false → s.tli.queue.length < 64 →
                t.tli.queue.Perm (⟨.dropUnit b.unit, .ut, .plain⟩ :: s.tli.queue) ∧ (getU b.unit t).dropWait = .idle)
            ∧ ((getU b.unit s).barSent = false → 64 ≤ s.tli.queue.length →
                t.tli = s.tli ∧ (getU b.unit t).dropWait = .waiting)
            ∧ (OutboxRoom 6 s → InOutbox (.claim b.serial (getU b.unit s).level .released b.unit) t))
        ∧ (p.isFinal = false → p.closePending = false →
            getU b.unit t = getU b.unit s ∧ (getA b.unit t).snapshot = none ∧ (getA b.unit t).live = (getA b.unit s).live)
        ∧ (p.isFinal = false → p.closePending = true →
            getU b.unit t = getU b.unit s ∧ MovedFinal b.unit s t))
    ∧ ((∀ x l u, m.body ≠ .claim x l .claiming u) → (∀ v b, m.body ≠ .usage v (some b)) →
        t = { s with sbp := { s.sbp with slot := none } })

/-- R175, R176. An offer to a full outbox: it takes the place of the newest notice of the highest class held, if that class is
numerically higher than its own, and is refused otherwise; a usage notice is refused while four are held. Each is a loss and an
occurrence of OUTBOX_OVERFLOW. -/
def Obligations.FullOutboxGivesUpTheLeastUrgent : Prop :=
  ∀ b s, OutboxLaw s →
    (s.sbp.outbox.length = 32 → b.isLoad = false → b.cls ≠ 6 → ∃ l m, s.sbp.outbox = l ++ [m]
      ∧ (∀ y ∈ l, y.body.cls ≤ m.body.cls)
      ∧ (b.cls < m.body.cls → (offerRaw b s).sbp.outbox = insertNotice ⟨s.sbp.nextRef, b⟩ l)
      ∧ (m.body.cls ≤ b.cls → (offerRaw b s).sbp.outbox = s.sbp.outbox)
      ∧ OccurredOnce .outboxOverflow s (offerRaw b s))
    ∧ (∀ u c, b = .usage u c → usageHeld s.sbp.outbox = 4 →
        (offerRaw b s).sbp.outbox = s.sbp.outbox ∧ OccurredOnce .outboxOverflow s (offerRaw b s))

/-! ### Alarms -/

/-- R186, R187, R188. One occurrence: the count rises, a first raise takes the subject and offers the notice unless the class is
masked, and a further serial joins the waiting ones while there are fewer than four and it is new. -/
def Obligations.OccurrenceLatchesItsRecord : Prop :=
  ∀ k x s, (k ≠ .outboxOverflow ∨ OutboxRoom 1 s) →
    let a := getK k s
    let t := occur k x s
    (getK k t).raised = true ∧ (getK k t).count = min 65535 (a.count + 1)
    ∧ (a.raised = false → (getK k t).subject = x ∧ (getK k t).waiting = a.waiting
        ∧ (masked k s = false → OutboxRoom 1 s → InOutbox (.alarm k 1 x) t)
        ∧ (masked k s = true → t.sbp = s.sbp))
    ∧ (a.raised = true → (getK k t).subject = a.subject ∧ t.sbp = s.sbp
        ∧ (x = none → (getK k t).waiting = a.waiting)
        ∧ ∀ v, x = some v →
          (a.subject = some v ∨ v ∈ a.waiting ∨ 4 ≤ a.waiting.length → (getK k t).waiting = a.waiting)
          ∧ (a.subject ≠ some v → v ∉ a.waiting → a.waiting.length < 4 → (getK k t).waiting = a.waiting ++ [v]))

/-- R189, R188. ALARM_CLEAR is refused NOT_READY in LISTEN and ENLIST; in SERVING and RESTARTING it rotates a raised kind to its
next waiting serial, with a notice unless masked, or clears it. A lost notice that has come due is offered again, filled from the
record as it stands, and a loss since it came due still waits (log entry 5). -/
def Obligations.AlarmClearRotatesOrClears : Prop :=
  (∀ h b s, s.held = false → Heeded h s → s.sc.phase = .listen ∨ s.sc.phase = .enlist →
    exec (.alarmClear h b) s = .next (answered h 8 .notReady .none s))
  ∧ (∀ h b s, s.held = false → Heeded h s → s.sc.phase = .serving ∨ s.sc.phase = .restarting →
    ((b = 0 ∨ 20 < b.toNat) → exec (.alarmClear h b) s = .next (answered h 8 .badField .none s))
    ∧ ∀ k, alarmNumber k = b.toNat →
      ((getK k s).raised = false → exec (.alarmClear h b) s = .next (answered h 8 .wrongState .none s))
      ∧ ((getK k s).raised = true → (getK k s).waiting = [] → exec (.alarmClear h b) s = .next (answered h 8 .done .none
          (modK k (fun _ => ⟨false, none, [], 0, .idle⟩) s)))
      ∧ (∀ v rest, (getK k s).raised = true → (getK k s).waiting = v :: rest →
          exec (.alarmClear h b) s = .next (answered h 8 .done .none
            (if masked k s then modK k (fun _ => ⟨true, some v, rest, 1, .idle⟩) s
             else offerNotice (.alarm k 1 (some v)) (modK k (fun _ => ⟨true, some v, rest, 1, .idle⟩) s)))))
  ∧ ∀ k s, s.held = false →
    ((getK k s).reoffer = .due ∨ (getK k s).reoffer = .dueAgain → OutboxRoom 1 s → ∃ t, exec (.alarmReoffer k) s = .next t
      ∧ InOutbox (.alarm k (getK k s).count (getK k s).subject) t ∧ t.ut = s.ut
      ∧ getK k t = { getK k s with reoffer := if (getK k s).reoffer = .due then .idle else .waiting })
    ∧ ((getK k s).reoffer = .idle ∨ (getK k s).reoffer = .waiting → exec (.alarmReoffer k) s = .next s)

/-! ### Start, settings and restart -/

/-- R191, R192. The end of LISTEN leads to SERVING if settings were taken and to ENLIST with 8,000 rounds otherwise; the end of
ENLIST applies and locks the defaults, raises SETTINGS_DEFAULTED and starts SERVING. That either command takes the SC's part of the
next round-marker event ahead of its frame, which `ticked` marks, is the model's choice (log entry 7). -/
def Obligations.StartPhasesEnd : Prop :=
  (∀ s, s.held = false → s.sc.phase = .listen → s.sc.listenCount ≤ 1 →
    (s.sc.settings ≠ none → exec .listenEnd s
      = .next { s with sc := { s.sc with listenCount := 0, phase := .serving, ticked := true } })
    ∧ (s.sc.settings = none → exec .listenEnd s
      = .next { s with sc := { s.sc with listenCount := 0, phase := .enlist, enlistCount := 8000, ticked := true } }))
  ∧ (∀ s, s.held = false → s.sc.phase = .enlist → s.sc.enlistCount ≤ 1 → ∃ t, exec .enlistExpiry s = .next t
    ∧ t.sc.phase = .serving ∧ t.sc.enlistCount = 0 ∧ t.sc.ticked = true ∧ FactorIsCurrent t ∧ t.ut = s.ut
    ∧ t.sc.settings = some { sources := 0x7FFF, tdark := 200, budget := 400000, interval := 400, litCount := 3,
                             maskSevere := false, maskDegrading := false, maskNotable := false }
    ∧ OccurredOnce .settingsDefaulted s t
    ∧ ((getK .settingsDefaulted s).raised = false → OutboxRoom 1 s → InOutbox (.alarm .settingsDefaulted 1 none) t))

/-- R193, R192. SETTINGS in every phase: LOCKED once locked, BAD_FIELD outside a range, and otherwise every field takes effect and
locks, F is recomputed, and ENLIST ends. -/
def Obligations.SettingsAreTakenOnce : Prop :=
  ∀ h f s, s.held = false → Heeded h s →
    let ok := 0 < f.sources.toNat ∧ f.sources.toNat < 32768 ∧ f.tdark.toNat ≤ 1023 ∧ 1 ≤ f.budget.toNat
      ∧ f.budget.toNat ≤ 400000 ∧ 16 ≤ f.interval.toNat ∧ f.interval.toNat ≤ 1024 ∧ 2 ≤ f.litCount.toNat
      ∧ f.litCount.toNat ≤ 8 ∧ f.mask.toNat < 8
    (s.sc.settings ≠ none → exec (.settings h f) s = .next (answered h 1 .locked .none s))
    ∧ (s.sc.settings = none → ¬ok → exec (.settings h f) s = .next (answered h 1 .badField .none s))
    ∧ (s.sc.settings = none → ok → ∃ t, exec (.settings h f) s = .next (answered h 1 .done .none t)
        ∧ t = { s with sc := t.sc, dv := { s.dv with factor := t.dv.factor } } ∧ FactorIsCurrent t
        ∧ t.sc.settings = some { sources := f.sources, tdark := f.tdark.toNat, budget := f.budget.toNat,
                                 interval := f.interval.toNat, litCount := f.litCount.toNat,
                                 maskSevere := f.mask.getLsbD 0, maskDegrading := f.mask.getLsbD 1,
                                 maskNotable := f.mask.getLsbD 2 }
        ∧ (s.sc.phase = .enlist → t.sc.phase = .serving ∧ t.sc.enlistCount = 0)
        ∧ (s.sc.phase ≠ .enlist → t.sc.phase = s.sc.phase ∧ t.sc.listenCount = s.sc.listenCount))

/-- R194, R133. RESTART in SERVING retires every record in service, frees every record that never served, ends the search and
clears every hush flag, and keeps the settings, the lists, the district's view and the counts; in any other phase it is BUSY. -/
def Obligations.RestartClosesEveryUnit : Prop :=
  ∀ h s, s.held = false → Heeded h s →
    (s.sc.phase ≠ .serving → exec (.restart h) s = .next (answered h 10 .busy .none s))
    ∧ (s.sc.phase = .serving → ∃ t, exec (.restart h) s = .next (answered h 10 .done .none t)
      ∧ t.sc.phase = .restarting ∧ t.sc.settings = s.sc.settings ∧ t.lm.iso.phase = .watch ∧ t.lm.iso.closing = []
      ∧ t.lm.iso.cand = [] ∧ t.lm.iso.countFrom = .any
      ∧ (∀ u, (getU u t).hush = false
          ∧ (inService (getU u s) = true → LeftService u s t)
          ∧ (neverServed (getU u s) = true → FreedDirectly u s t)
          ∧ ((getU u s).state = .retiring ∨ (getU u s).state = .free → getU u t = { getU u s with hush := false }))
      ∧ t.ec.permits = s.ec.permits ∧ t.dv.loads = s.dv.loads ∧ t.dv.factor = s.dv.factor ∧ t.dv.claims = s.dv.claims
      ∧ t.dv.barred = s.dv.barred ∧ t.ucb.band = s.ucb.band ∧ t.gs = s.gs ∧ t.tli.nextRound = s.tli.nextRound
      ∧ t.tli.undeliverable = s.tli.undeliverable ∧ t.bm = s.bm)

/-- R195, R191. RESTART_END, once the test after a frame has found every record FREE: the strangers and the ranging queue are
emptied, cooling and drop pending are cleared, and the phase is SERVING. A lost presence notice that has come due is offered again
in LISTEN and ENLIST alone. That a loss since it came due (`dueAgain`) still waits for the next round-marker event is the model's
reading (log entry 5). -/
def Obligations.RestartEndAndPresenceReoffer : Prop :=
  (∀ s, s.held = false →
    (s.sc.restartEnds = false → exec .restartEnd s = .next s)
    ∧ (s.sc.restartEnds = true → ∃ t, exec .restartEnd s = .next t ∧ t.sc = { s.sc with phase := .serving, restartEnds := false }
        ∧ t.ec = { s.ec with strangers := [], rangingQueue := [] } ∧ t.sbp = s.sbp ∧ t.tli = s.tli
        ∧ ∀ u, getU u t = { getU u s with cooling := 0, dropPending := false, dropWait := .idle }))
  ∧ ∀ s, s.held = false →
    (s.sc.presence = .idle ∨ s.sc.presence = .waiting → exec .presenceReoffer s = .next s)
    ∧ (s.sc.presence = .due ∨ s.sc.presence = .dueAgain → ∃ t, exec .presenceReoffer s = .next t ∧ t.ut = s.ut ∧
      let sc := { s.sc with presence := if s.sc.presence = .due then .idle else .waiting }
      (s.sc.phase = .listen ∨ s.sc.phase = .enlist → OutboxRoom 1 s →
          InOutbox (.presence s.sc.cause s.sc.reach) t ∧ t.sc = sc)
      ∧ (s.sc.phase = .serving ∨ s.sc.phase = .restarting → t = { s with sc := sc }))

/-! ### The laws that every step keeps -/

/-- R8, R175, R40, R43, R157, R162, R156, R185. Every step keeps the capacities, the orders and the uniqueness of the lists, the
range of F and the law of the alarm records. -/
def Obligations.ListAndAlarmLawsAreKept : Prop :=
  ∀ s t, step s = .next t →
    (QueueLaw s → QueueLaw t) ∧ (OutboxLaw s → OutboxLaw t) ∧ (EnrolmentListLaw s → EnrolmentListLaw t)
      ∧ (DistrictListLaw s → DistrictListLaw t) ∧ (FactorLaw s → FactorLaw t) ∧ (AlarmLaw s → AlarmLaw t)

/-- R24. Every step keeps the law of the serials: no two non-FREE records hold one serial, and no record that has never served
holds a barred one. -/
def Obligations.SerialLawIsKept : Prop :=
  ∀ s t, SerialLaw s → step s = .next t → SerialLaw t

/-- R57, R140, R148, R195. Every step keeps the law of the ranging queue together with the law of closing snapshots. -/
def Obligations.RangingAndClosingLawsAreKept : Prop :=
  ∀ s t, RangingLaw s → ClosingLaw s → step s = .next t → RangingLaw t ∧ ClosingLaw t

/-- R74, R135. Every step keeps every credit within its bucket, and busy excess ≤ excess ≤ the upstream sum in every counter set
whose saturated flag is clear. -/
def Obligations.CreditAndCounterLawsAreKept : Prop :=
  ∀ s t, step s = .next t → (CreditLaw s → CreditLaw t) ∧ (CounterLaw s → CounterLaw t)

/-- 0.6.7, R196. The laws hold right after reset. -/
def Obligations.ResetMeetsTheLaws : Prop :=
  QueueLaw .reset ∧ OutboxLaw .reset ∧ EnrolmentListLaw .reset ∧ DistrictListLaw .reset ∧ FactorLaw .reset ∧ AlarmLaw .reset
    ∧ SerialLaw .reset ∧ RangingLaw .reset ∧ ClosingLaw .reset ∧ CreditLaw .reset ∧ CounterLaw .reset

/-- R36, R146. A record passes out of RETIRING at one event alone besides a reset: the report that the usage notice carrying its
final snapshot has been sent, and then it is FREE. -/
def Obligations.RetiringEndsWithTheFinalNotice : Prop :=
  ∀ c s t u, RangingLaw s → ClosingLaw s → exec c s = .next t → (getU u s).state = .retiring → (getU u t).state ≠ .retiring →
    (∃ pins causes, c = .resetRelease pins causes)
    ∨ (c = .noticeSent ∧ (getU u t).state = .free
        ∧ ∃ m v b p, s.sbp.slot = some ⟨m, true⟩ ∧ m.body = .usage v (some b) ∧ b.unit = u
            ∧ (getA u s).snapshot = some p ∧ p.isFinal = true ∧ p.notice = .onLine
            ∧ (getU u s).serial = some b.serial ∧ p.takeNo = b.takeNo)
end

