-- ==== Sys2Proof/Laws/State.lean ====
section
/-!
SUPPORT. One lemma for each field of the state under each of the small updates, so that no later proof unfolds a record update,
and the readings of a table after a write.
-/
namespace Sys2Proof.Machine

/-! ### `setU` writes `ut` alone -/

@[simp] theorem setU_pending (u : UnitNo) (r : UnitRecord) (s : State) : (setU u r s).pending = s.pending := rfl
@[simp] theorem setU_held (u : UnitNo) (r : UnitRecord) (s : State) : (setU u r s).held = s.held := rfl
@[simp] theorem setU_sc (u : UnitNo) (r : UnitRecord) (s : State) : (setU u r s).sc = s.sc := rfl
@[simp] theorem setU_tli (u : UnitNo) (r : UnitRecord) (s : State) : (setU u r s).tli = s.tli := rfl
@[simp] theorem setU_ec (u : UnitNo) (r : UnitRecord) (s : State) : (setU u r s).ec = s.ec := rfl
@[simp] theorem setU_gs (u : UnitNo) (r : UnitRecord) (s : State) : (setU u r s).gs = s.gs := rfl
@[simp] theorem setU_bm (u : UnitNo) (r : UnitRecord) (s : State) : (setU u r s).bm = s.bm := rfl
@[simp] theorem setU_lm (u : UnitNo) (r : UnitRecord) (s : State) : (setU u r s).lm = s.lm := rfl
@[simp] theorem setU_ucb (u : UnitNo) (r : UnitRecord) (s : State) : (setU u r s).ucb = s.ucb := rfl
@[simp] theorem setU_dv (u : UnitNo) (r : UnitRecord) (s : State) : (setU u r s).dv = s.dv := rfl
@[simp] theorem setU_sbp (u : UnitNo) (r : UnitRecord) (s : State) : (setU u r s).sbp = s.sbp := rfl
@[simp] theorem setU_alarms (u : UnitNo) (r : UnitRecord) (s : State) : (setU u r s).alarms = s.alarms := rfl
@[simp] theorem setU_pus (u : UnitNo) (r : UnitRecord) (s : State) : (setU u r s).pus = s.pus := rfl
@[simp] theorem setU_freeIndex (u : UnitNo) (r : UnitRecord) (s : State) : (setU u r s).freeIndex = s.freeIndex := rfl

/-! ### `modU` writes `ut` alone -/

@[simp] theorem modU_pending (u : UnitNo) (f : UnitRecord → UnitRecord) (s : State) : (modU u f s).pending = s.pending := rfl
@[simp] theorem modU_held (u : UnitNo) (f : UnitRecord → UnitRecord) (s : State) : (modU u f s).held = s.held := rfl
@[simp] theorem modU_sc (u : UnitNo) (f : UnitRecord → UnitRecord) (s : State) : (modU u f s).sc = s.sc := rfl
@[simp] theorem modU_tli (u : UnitNo) (f : UnitRecord → UnitRecord) (s : State) : (modU u f s).tli = s.tli := rfl
@[simp] theorem modU_ec (u : UnitNo) (f : UnitRecord → UnitRecord) (s : State) : (modU u f s).ec = s.ec := rfl
@[simp] theorem modU_gs (u : UnitNo) (f : UnitRecord → UnitRecord) (s : State) : (modU u f s).gs = s.gs := rfl
@[simp] theorem modU_bm (u : UnitNo) (f : UnitRecord → UnitRecord) (s : State) : (modU u f s).bm = s.bm := rfl
@[simp] theorem modU_lm (u : UnitNo) (f : UnitRecord → UnitRecord) (s : State) : (modU u f s).lm = s.lm := rfl
@[simp] theorem modU_ucb (u : UnitNo) (f : UnitRecord → UnitRecord) (s : State) : (modU u f s).ucb = s.ucb := rfl
@[simp] theorem modU_dv (u : UnitNo) (f : UnitRecord → UnitRecord) (s : State) : (modU u f s).dv = s.dv := rfl
@[simp] theorem modU_sbp (u : UnitNo) (f : UnitRecord → UnitRecord) (s : State) : (modU u f s).sbp = s.sbp := rfl
@[simp] theorem modU_alarms (u : UnitNo) (f : UnitRecord → UnitRecord) (s : State) : (modU u f s).alarms = s.alarms := rfl
@[simp] theorem modU_pus (u : UnitNo) (f : UnitRecord → UnitRecord) (s : State) : (modU u f s).pus = s.pus := rfl
@[simp] theorem modU_freeIndex (u : UnitNo) (f : UnitRecord → UnitRecord) (s : State) : (modU u f s).freeIndex = s.freeIndex := rfl

/-! ### `mapU` writes `ut` alone -/

@[simp] theorem mapU_pending (f : UnitRecord → UnitRecord) (s : State) : (mapU f s).pending = s.pending := rfl
@[simp] theorem mapU_held (f : UnitRecord → UnitRecord) (s : State) : (mapU f s).held = s.held := rfl
@[simp] theorem mapU_sc (f : UnitRecord → UnitRecord) (s : State) : (mapU f s).sc = s.sc := rfl
@[simp] theorem mapU_tli (f : UnitRecord → UnitRecord) (s : State) : (mapU f s).tli = s.tli := rfl
@[simp] theorem mapU_ec (f : UnitRecord → UnitRecord) (s : State) : (mapU f s).ec = s.ec := rfl
@[simp] theorem mapU_gs (f : UnitRecord → UnitRecord) (s : State) : (mapU f s).gs = s.gs := rfl
@[simp] theorem mapU_bm (f : UnitRecord → UnitRecord) (s : State) : (mapU f s).bm = s.bm := rfl
@[simp] theorem mapU_lm (f : UnitRecord → UnitRecord) (s : State) : (mapU f s).lm = s.lm := rfl
@[simp] theorem mapU_ucb (f : UnitRecord → UnitRecord) (s : State) : (mapU f s).ucb = s.ucb := rfl
@[simp] theorem mapU_dv (f : UnitRecord → UnitRecord) (s : State) : (mapU f s).dv = s.dv := rfl
@[simp] theorem mapU_sbp (f : UnitRecord → UnitRecord) (s : State) : (mapU f s).sbp = s.sbp := rfl
@[simp] theorem mapU_alarms (f : UnitRecord → UnitRecord) (s : State) : (mapU f s).alarms = s.alarms := rfl
@[simp] theorem mapU_pus (f : UnitRecord → UnitRecord) (s : State) : (mapU f s).pus = s.pus := rfl
@[simp] theorem mapU_freeIndex (f : UnitRecord → UnitRecord) (s : State) : (mapU f s).freeIndex = s.freeIndex := rfl

/-! ### `modE` writes `ec` alone -/

@[simp] theorem modE_pending (u : UnitNo) (f : EcUnit → EcUnit) (s : State) : (modE u f s).pending = s.pending := rfl
@[simp] theorem modE_held (u : UnitNo) (f : EcUnit → EcUnit) (s : State) : (modE u f s).held = s.held := rfl
@[simp] theorem modE_sc (u : UnitNo) (f : EcUnit → EcUnit) (s : State) : (modE u f s).sc = s.sc := rfl
@[simp] theorem modE_tli (u : UnitNo) (f : EcUnit → EcUnit) (s : State) : (modE u f s).tli = s.tli := rfl
@[simp] theorem modE_ut (u : UnitNo) (f : EcUnit → EcUnit) (s : State) : (modE u f s).ut = s.ut := rfl
@[simp] theorem modE_gs (u : UnitNo) (f : EcUnit → EcUnit) (s : State) : (modE u f s).gs = s.gs := rfl
@[simp] theorem modE_bm (u : UnitNo) (f : EcUnit → EcUnit) (s : State) : (modE u f s).bm = s.bm := rfl
@[simp] theorem modE_lm (u : UnitNo) (f : EcUnit → EcUnit) (s : State) : (modE u f s).lm = s.lm := rfl
@[simp] theorem modE_ucb (u : UnitNo) (f : EcUnit → EcUnit) (s : State) : (modE u f s).ucb = s.ucb := rfl
@[simp] theorem modE_dv (u : UnitNo) (f : EcUnit → EcUnit) (s : State) : (modE u f s).dv = s.dv := rfl
@[simp] theorem modE_sbp (u : UnitNo) (f : EcUnit → EcUnit) (s : State) : (modE u f s).sbp = s.sbp := rfl
@[simp] theorem modE_alarms (u : UnitNo) (f : EcUnit → EcUnit) (s : State) : (modE u f s).alarms = s.alarms := rfl
@[simp] theorem modE_pus (u : UnitNo) (f : EcUnit → EcUnit) (s : State) : (modE u f s).pus = s.pus := rfl
@[simp] theorem modE_freeIndex (u : UnitNo) (f : EcUnit → EcUnit) (s : State) : (modE u f s).freeIndex = s.freeIndex := rfl

/-! ### `mapE` writes `ec` alone -/

@[simp] theorem mapE_pending (f : EcUnit → EcUnit) (s : State) : (mapE f s).pending = s.pending := rfl
@[simp] theorem mapE_held (f : EcUnit → EcUnit) (s : State) : (mapE f s).held = s.held := rfl
@[simp] theorem mapE_sc (f : EcUnit → EcUnit) (s : State) : (mapE f s).sc = s.sc := rfl
@[simp] theorem mapE_tli (f : EcUnit → EcUnit) (s : State) : (mapE f s).tli = s.tli := rfl
@[simp] theorem mapE_ut (f : EcUnit → EcUnit) (s : State) : (mapE f s).ut = s.ut := rfl
@[simp] theorem mapE_gs (f : EcUnit → EcUnit) (s : State) : (mapE f s).gs = s.gs := rfl
@[simp] theorem mapE_bm (f : EcUnit → EcUnit) (s : State) : (mapE f s).bm = s.bm := rfl
@[simp] theorem mapE_lm (f : EcUnit → EcUnit) (s : State) : (mapE f s).lm = s.lm := rfl
@[simp] theorem mapE_ucb (f : EcUnit → EcUnit) (s : State) : (mapE f s).ucb = s.ucb := rfl
@[simp] theorem mapE_dv (f : EcUnit → EcUnit) (s : State) : (mapE f s).dv = s.dv := rfl
@[simp] theorem mapE_sbp (f : EcUnit → EcUnit) (s : State) : (mapE f s).sbp = s.sbp := rfl
@[simp] theorem mapE_alarms (f : EcUnit → EcUnit) (s : State) : (mapE f s).alarms = s.alarms := rfl
@[simp] theorem mapE_pus (f : EcUnit → EcUnit) (s : State) : (mapE f s).pus = s.pus := rfl
@[simp] theorem mapE_freeIndex (f : EcUnit → EcUnit) (s : State) : (mapE f s).freeIndex = s.freeIndex := rfl

/-! ### `modA` writes `ucb` alone -/

@[simp] theorem modA_pending (u : UnitNo) (f : Account → Account) (s : State) : (modA u f s).pending = s.pending := rfl
@[simp] theorem modA_held (u : UnitNo) (f : Account → Account) (s : State) : (modA u f s).held = s.held := rfl
@[simp] theorem modA_sc (u : UnitNo) (f : Account → Account) (s : State) : (modA u f s).sc = s.sc := rfl
@[simp] theorem modA_tli (u : UnitNo) (f : Account → Account) (s : State) : (modA u f s).tli = s.tli := rfl
@[simp] theorem modA_ut (u : UnitNo) (f : Account → Account) (s : State) : (modA u f s).ut = s.ut := rfl
@[simp] theorem modA_ec (u : UnitNo) (f : Account → Account) (s : State) : (modA u f s).ec = s.ec := rfl
@[simp] theorem modA_gs (u : UnitNo) (f : Account → Account) (s : State) : (modA u f s).gs = s.gs := rfl
@[simp] theorem modA_bm (u : UnitNo) (f : Account → Account) (s : State) : (modA u f s).bm = s.bm := rfl
@[simp] theorem modA_lm (u : UnitNo) (f : Account → Account) (s : State) : (modA u f s).lm = s.lm := rfl
@[simp] theorem modA_dv (u : UnitNo) (f : Account → Account) (s : State) : (modA u f s).dv = s.dv := rfl
@[simp] theorem modA_sbp (u : UnitNo) (f : Account → Account) (s : State) : (modA u f s).sbp = s.sbp := rfl
@[simp] theorem modA_alarms (u : UnitNo) (f : Account → Account) (s : State) : (modA u f s).alarms = s.alarms := rfl
@[simp] theorem modA_pus (u : UnitNo) (f : Account → Account) (s : State) : (modA u f s).pus = s.pus := rfl
@[simp] theorem modA_freeIndex (u : UnitNo) (f : Account → Account) (s : State) : (modA u f s).freeIndex = s.freeIndex := rfl

/-! ### `modK` writes `alarms` alone -/

@[simp] theorem modK_pending (k : AlarmKind) (f : AlarmRecord → AlarmRecord) (s : State) : (modK k f s).pending = s.pending := rfl
@[simp] theorem modK_held (k : AlarmKind) (f : AlarmRecord → AlarmRecord) (s : State) : (modK k f s).held = s.held := rfl
@[simp] theorem modK_sc (k : AlarmKind) (f : AlarmRecord → AlarmRecord) (s : State) : (modK k f s).sc = s.sc := rfl
@[simp] theorem modK_tli (k : AlarmKind) (f : AlarmRecord → AlarmRecord) (s : State) : (modK k f s).tli = s.tli := rfl
@[simp] theorem modK_ut (k : AlarmKind) (f : AlarmRecord → AlarmRecord) (s : State) : (modK k f s).ut = s.ut := rfl
@[simp] theorem modK_ec (k : AlarmKind) (f : AlarmRecord → AlarmRecord) (s : State) : (modK k f s).ec = s.ec := rfl
@[simp] theorem modK_gs (k : AlarmKind) (f : AlarmRecord → AlarmRecord) (s : State) : (modK k f s).gs = s.gs := rfl
@[simp] theorem modK_bm (k : AlarmKind) (f : AlarmRecord → AlarmRecord) (s : State) : (modK k f s).bm = s.bm := rfl
@[simp] theorem modK_lm (k : AlarmKind) (f : AlarmRecord → AlarmRecord) (s : State) : (modK k f s).lm = s.lm := rfl
@[simp] theorem modK_ucb (k : AlarmKind) (f : AlarmRecord → AlarmRecord) (s : State) : (modK k f s).ucb = s.ucb := rfl
@[simp] theorem modK_dv (k : AlarmKind) (f : AlarmRecord → AlarmRecord) (s : State) : (modK k f s).dv = s.dv := rfl
@[simp] theorem modK_sbp (k : AlarmKind) (f : AlarmRecord → AlarmRecord) (s : State) : (modK k f s).sbp = s.sbp := rfl
@[simp] theorem modK_pus (k : AlarmKind) (f : AlarmRecord → AlarmRecord) (s : State) : (modK k f s).pus = s.pus := rfl
@[simp] theorem modK_freeIndex (k : AlarmKind) (f : AlarmRecord → AlarmRecord) (s : State) : (modK k f s).freeIndex = s.freeIndex := rfl

/-! ### `modIso` writes `lm` alone -/

@[simp] theorem modIso_pending (f : Isolation → Isolation) (s : State) : (modIso f s).pending = s.pending := rfl
@[simp] theorem modIso_held (f : Isolation → Isolation) (s : State) : (modIso f s).held = s.held := rfl
@[simp] theorem modIso_sc (f : Isolation → Isolation) (s : State) : (modIso f s).sc = s.sc := rfl
@[simp] theorem modIso_tli (f : Isolation → Isolation) (s : State) : (modIso f s).tli = s.tli := rfl
@[simp] theorem modIso_ut (f : Isolation → Isolation) (s : State) : (modIso f s).ut = s.ut := rfl
@[simp] theorem modIso_ec (f : Isolation → Isolation) (s : State) : (modIso f s).ec = s.ec := rfl
@[simp] theorem modIso_gs (f : Isolation → Isolation) (s : State) : (modIso f s).gs = s.gs := rfl
@[simp] theorem modIso_bm (f : Isolation → Isolation) (s : State) : (modIso f s).bm = s.bm := rfl
@[simp] theorem modIso_ucb (f : Isolation → Isolation) (s : State) : (modIso f s).ucb = s.ucb := rfl
@[simp] theorem modIso_dv (f : Isolation → Isolation) (s : State) : (modIso f s).dv = s.dv := rfl
@[simp] theorem modIso_sbp (f : Isolation → Isolation) (s : State) : (modIso f s).sbp = s.sbp := rfl
@[simp] theorem modIso_alarms (f : Isolation → Isolation) (s : State) : (modIso f s).alarms = s.alarms := rfl
@[simp] theorem modIso_pus (f : Isolation → Isolation) (s : State) : (modIso f s).pus = s.pus := rfl
@[simp] theorem modIso_freeIndex (f : Isolation → Isolation) (s : State) : (modIso f s).freeIndex = s.freeIndex := rfl

/-! ### Readings after writes -/

@[simp] theorem vector_get_set {α : Type} {n : Nat} (v : Vector α n) (i j : Fin n) (x : α) :
    (v.set i x).get j = if i = j then x else v.get j := by
  simp only [Vector.get_eq_getElem, Vector.getElem_set, Fin.ext_iff]

@[simp] theorem vmap_get {α β : Type} {n : Nat} (f : α → β) (v : Vector α n) (i : Fin n) :
    (vmap f v).get i = f (v.get i) := by
  simp [vmap, Vector.get_eq_getElem]

@[simp] theorem vzip_get {α β γ : Type} {n : Nat} (f : α → β → γ) (v : Vector α n) (w : Vector β n) (i : Fin n) :
    (vzip f v w).get i = f (v.get i) (w.get i) := by
  simp [vzip, Vector.get_eq_getElem]

theorem getU_setU (u v : UnitNo) (r : UnitRecord) (s : State) : getU v (setU u r s) = if u = v then r else getU v s :=
  vector_get_set _ _ _ _

@[simp] theorem getU_setU_same (u : UnitNo) (r : UnitRecord) (s : State) : getU u (setU u r s) = r := by simp [getU_setU]

theorem getU_modU (u v : UnitNo) (f : UnitRecord → UnitRecord) (s : State) :
    getU v (modU u f s) = if u = v then f (getU u s) else getU v s := getU_setU _ _ _ _

@[simp] theorem getU_modU_same (u : UnitNo) (f : UnitRecord → UnitRecord) (s : State) :
    getU u (modU u f s) = f (getU u s) := by simp [getU_modU]

@[simp] theorem getU_mapU (u : UnitNo) (f : UnitRecord → UnitRecord) (s : State) : getU u (mapU f s) = f (getU u s) :=
  vmap_get _ _ _

theorem getE_modE (u v : UnitNo) (f : EcUnit → EcUnit) (s : State) :
    getE v (modE u f s) = if u = v then f (getE u s) else getE v s := vector_get_set _ _ _ _

@[simp] theorem getE_modE_same (u : UnitNo) (f : EcUnit → EcUnit) (s : State) :
    getE u (modE u f s) = f (getE u s) := by simp [getE_modE]

@[simp] theorem getE_mapE (u : UnitNo) (f : EcUnit → EcUnit) (s : State) : getE u (mapE f s) = f (getE u s) := vmap_get _ _ _

theorem getA_modA (u v : UnitNo) (f : Account → Account) (s : State) :
    getA v (modA u f s) = if u = v then f (getA u s) else getA v s := vector_get_set _ _ _ _

@[simp] theorem getA_modA_same (u : UnitNo) (f : Account → Account) (s : State) :
    getA u (modA u f s) = f (getA u s) := by simp [getA_modA]

/-- The place of a kind tells the kind. -/
theorem alarmIndex_inj {j k : AlarmKind} : alarmIndex j = alarmIndex k ↔ j = k := by
  cases j <;> cases k <;> decide

theorem getK_modK (j k : AlarmKind) (f : AlarmRecord → AlarmRecord) (s : State) :
    getK k (modK j f s) = if j = k then f (getK j s) else getK k s := by
  unfold getK modK
  simp only [vector_get_set, alarmIndex_inj]
  rfl

@[simp] theorem getK_modK_same (k : AlarmKind) (f : AlarmRecord → AlarmRecord) (s : State) :
    getK k (modK k f s) = f (getK k s) := by simp [getK_modK]

/-! ### A reading depends on its own part of the state alone -/

theorem getU_congr {s t : State} (h : t.ut = s.ut) (u : UnitNo) : getU u t = getU u s := by simp only [getU, h]

theorem getE_congr {s t : State} (h : t.ec.units = s.ec.units) (u : UnitNo) : getE u t = getE u s := by simp only [getE, h]

theorem getA_congr {s t : State} (h : t.ucb.accounts = s.ucb.accounts) (u : UnitNo) : getA u t = getA u s := by
  simp only [getA, h]

theorem getK_congr {s t : State} (h : t.alarms = s.alarms) (k : AlarmKind) : getK k t = getK k s := by simp only [getK, h]

@[simp] theorem modE_permits (u : UnitNo) (f : EcUnit → EcUnit) (s : State) : (modE u f s).ec.permits = s.ec.permits := rfl
@[simp] theorem modE_strangers (u : UnitNo) (f : EcUnit → EcUnit) (s : State) :
    (modE u f s).ec.strangers = s.ec.strangers := rfl
@[simp] theorem modE_rangingQueue (u : UnitNo) (f : EcUnit → EcUnit) (s : State) :
    (modE u f s).ec.rangingQueue = s.ec.rangingQueue := rfl
@[simp] theorem modE_lostClaims (u : UnitNo) (f : EcUnit → EcUnit) (s : State) :
    (modE u f s).ec.lostClaims = s.ec.lostClaims := rfl
@[simp] theorem modE_sinceDiscovery (u : UnitNo) (f : EcUnit → EcUnit) (s : State) :
    (modE u f s).ec.sinceDiscovery = s.ec.sinceDiscovery := rfl
@[simp] theorem modA_band (u : UnitNo) (f : Account → Account) (s : State) : (modA u f s).ucb.band = s.ucb.band := rfl
@[simp] theorem modA_out (u : UnitNo) (f : Account → Account) (s : State) : (modA u f s).ucb.out = s.ucb.out := rfl
@[simp] theorem modA_pacePtr (u : UnitNo) (f : Account → Account) (s : State) :
    (modA u f s).ucb.pacePtr = s.ucb.pacePtr := rfl
@[simp] theorem modA_paceDue (u : UnitNo) (f : Account → Account) (s : State) :
    (modA u f s).ucb.paceDue = s.ucb.paceDue := rfl
@[simp] theorem modIso_iso (f : Isolation → Isolation) (s : State) : (modIso f s).lm.iso = f s.lm.iso := rfl
@[simp] theorem modIso_lastDark (f : Isolation → Isolation) (s : State) : (modIso f s).lm.lastDark = s.lm.lastDark := rfl
@[simp] theorem modIso_barWait (f : Isolation → Isolation) (s : State) : (modIso f s).lm.barWait = s.lm.barWait := rfl

end Sys2Proof.Machine
end

