-- ==== Sys2Proof/Laws/Reports.lean ====
section
/-!
SUPPORT. What an offer of a notice, an occurrence of an alarm and a run of pacing can do: each changes only what `OnlyReports`
names. And the outbox itself: what joins, in what order, and when an offer finds room.
-/
namespace Sys2Proof.Machine

/-! ### `OnlyReports` is reflexive and transitive -/

theorem OnlyReports.refl (s : State) : OnlyReports s s := by
  constructor <;> intros <;> rfl

theorem OnlyReports.trans {s t v : State} (h : OnlyReports s t) (k : OnlyReports t v) : OnlyReports s v where
  pending := k.pending.trans h.pending
  held := k.held.trans h.held
  sc := by rw [k.sc, h.sc]
  tli := k.tli.trans h.tli
  ut := k.ut.trans h.ut
  ec := by rw [k.ec, h.ec]
  gs := k.gs.trans h.gs
  bm := k.bm.trans h.bm
  lm := k.lm.trans h.lm
  band := k.band.trans h.band
  paceDue := k.paceDue.trans h.paceDue
  live u := (k.live u).trans (h.live u)
  takeNo u := (k.takeNo u).trans (h.takeNo u)
  snapshot u := (k.snapshot u).trans (h.snapshot u)
  onLine u := (k.onLine u).trans (h.onLine u)
  dv := by rw [k.dv, h.dv]
  quiet := k.quiet.trans h.quiet
  heardQuiet := k.heardQuiet.trans h.heardQuiet
  slot := k.slot.trans h.slot
  lineFaults := k.lineFaults.trans h.lineFaults
  recvErrors := k.recvErrors.trans h.recvErrors
  refused := k.refused.trans h.refused
  pus := k.pus.trans h.pus
  freeIndex := k.freeIndex.trans h.freeIndex

/-- A report leaves every record as it is. -/
theorem OnlyReports.getU {s t : State} (h : OnlyReports s t) (u : UnitNo) : getU u t = Machine.getU u s :=
  getU_congr h.ut u

/-- A report leaves what the EC holds beside a record as it is. -/
theorem OnlyReports.getE {s t : State} (h : OnlyReports s t) (u : UnitNo) : getE u t = Machine.getE u s :=
  getE_congr (by rw [h.ec]) u

/-! ### The pieces -/

/-- A change of one alarm record is a report. -/
theorem modK_reports (k : AlarmKind) (f : AlarmRecord → AlarmRecord) (s : State) : OnlyReports s (modK k f s) := by
  constructor <;> intros <;> rfl

theorem latch_reports (k : AlarmKind) (x : Option Serial) (s : State) : OnlyReports s (latch k x s) := modK_reports _ _ _

theorem overflow_reports (s : State) : OnlyReports s (overflow s) := latch_reports _ _ _

theorem noteLost_reports (n : Notice) (s : State) : OnlyReports s (noteLost n s) := by
  unfold noteLost
  split
  · split
    · exact modK_reports _ _ _
    · exact .refl s
  · exact .refl s
  · split
    · exact .refl s
    · constructor <;> intros <;> rfl
  · constructor <;> intros <;> rfl
  · exact .refl s
  · exact .refl s
  · constructor <;> intros <;> rfl

@[simp] theorem Snapshot.move_contents (a b : NoticeState) (p : Snapshot) : (p.move a b).contents = p.contents := by
  unfold Snapshot.move; split <;> rfl

theorem Snapshot.move_onLine {a b : NoticeState} (ha : a ≠ .onLine) (hb : b ≠ .onLine) (p : Snapshot) :
    ((p.move a b).notice == .onLine) = (p.notice == .onLine) := by
  unfold Snapshot.move
  split
  next h => rw [h, beq_eq_false_iff_ne.mpr ha]; exact beq_eq_false_iff_ne.mpr hb
  next => rfl

/-- A change of one snapshot's notice state between unqueued and queued, and of the pacing's own count and pointer, is a report. -/
theorem notice_state_reports (u : UnitNo) {a b : NoticeState} (ha : a ≠ .onLine) (hb : b ≠ .onLine) (k : Nat) (p : UnitNo)
    (s : State) :
    OnlyReports s (modA u (fun x => { x with snapshot := x.snapshot.map (Snapshot.move a b) })
      { s with ucb := { s.ucb with out := k, pacePtr := p } }) := by
  have key : ∀ v, getA v { s with ucb := { s.ucb with out := k, pacePtr := p } } = getA v s := fun _ => rfl
  constructor
  case live => intro v; rw [getA_modA]; split <;> simp_all
  case takeNo => intro v; rw [getA_modA]; split <;> simp_all
  case snapshot =>
    intro v
    rw [getA_modA]
    split
    next h => subst h; cases hs : (getA u s).snapshot <;> simp [key, hs]
    next => rw [key]
  case onLine =>
    intro v
    rw [getA_modA]
    split
    next h => subst h; cases hs : (getA u s).snapshot <;> simp [key, hs, Snapshot.move_onLine ha hb]
    next => rw [key]
  all_goals rfl

theorem usageEvicted_reports (n : Notice) (s : State) : OnlyReports s (usageEvicted n s) := by
  unfold usageEvicted
  split
  · exact notice_state_reports _ (by decide) (by decide) _ s.ucb.pacePtr s
  · constructor <;> intros <;> rfl
  · exact .refl s

theorem usageTaken_reports (u : UnitNo) (s : State) : OnlyReports s (usageTaken u s) :=
  notice_state_reports _ (by decide) (by decide) _ _ _

/-- A change of the outbox and of its numbering is a report. -/
theorem outbox_reports (l : List Notice) (k : Nat) (s : State) :
    OnlyReports s { s with sbp := { s.sbp with outbox := l, nextRef := k } } := by
  constructor <;> intros <;> rfl

/-! ### Offers, pacing, occurrences -/

theorem offerRaw_reports (b : NoticeBody) (s : State) : OnlyReports s (offerRaw b s) := by
  unfold offerRaw
  simp only
  split
  · exact (outbox_reports _ _ s).trans ((noteLost_reports _ _).trans (overflow_reports _))
  split
  · exact outbox_reports _ _ s
  split
  · exact (outbox_reports _ _ s).trans ((noteLost_reports _ _).trans ((usageEvicted_reports _ _).trans (overflow_reports _)))
  · exact outbox_reports _ _ s

theorem paceLoop_reports (k : Nat) (s : State) : OnlyReports s (paceLoop k s) := by
  induction k generalizing s with
  | zero => exact .refl s
  | succ k ih =>
    unfold paceLoop
    split
    · split
      · exact .refl s
      · split
        · exact offerRaw_reports _ _
        · exact (offerRaw_reports _ _).trans ((usageTaken_reports _ _).trans (ih _))
    · exact .refl s

theorem offerPaced_reports (b : NoticeBody) (s : State) : OnlyReports s (offerPaced b s) := by
  unfold offerPaced
  simp only
  split
  · exact (offerRaw_reports _ _).trans (paceLoop_reports _ _)
  · exact offerRaw_reports _ _

theorem overflowNotice_reports (a s : State) : OnlyReports s (overflowNotice a s) := by
  unfold overflowNotice
  split
  · exact offerPaced_reports _ _
  · exact .refl s

/-- An offered notice, with all that its losses lead to, changes only what reports touch. -/
theorem offerNotice_reports (b : NoticeBody) (s : State) : OnlyReports s (offerNotice b s) :=
  (offerPaced_reports _ _).trans (overflowNotice_reports _ _)

/-- A run of pacing changes only what reports touch. -/
theorem pace_reports (s : State) : OnlyReports s (pace s) := (paceLoop_reports _ _).trans (overflowNotice_reports _ _)

/-- An occurrence of an alarm changes only what reports touch. -/
theorem occur_reports (k : AlarmKind) (x : Option Serial) (s : State) : OnlyReports s (occur k x s) := by
  unfold occur
  split
  · exact (latch_reports _ _ _).trans (offerNotice_reports _ _)
  · exact latch_reports _ _ _

theorem queueReleased_reports (u : UnitNo) (x : Serial) (l : Nat) (s : State) : OnlyReports s (queueReleased u x l s) :=
  offerNotice_reports _ _

/-- An answered order changes only what reports touch beyond its effect. -/
theorem answered_reports (h : OrderHead) (k : Byte) (o : AnswerOutcome) (d : KindData) (s : State) :
    OnlyReports s (answered h k o d s) := by
  unfold answered
  split
  · exact .refl s
  · exact offerNotice_reports _ _

/-! ### The outbox -/

/-- A joining notice stands among the others. -/
theorem mem_insertNotice {n m : Notice} {box : List Notice} : m ∈ insertNotice n box ↔ m = n ∨ m ∈ box := by
  unfold insertNotice
  simp only [List.mem_append, List.mem_cons, List.mem_filter, decide_eq_true_eq]
  constructor
  · rintro (⟨h, -⟩ | rfl | ⟨h, -⟩) <;> simp_all
  · rintro (rfl | h)
    · simp
    · by_cases hc : m.body.cls ≤ n.body.cls
      · exact .inl ⟨h, hc⟩
      · exact .inr (.inr ⟨h, by omega⟩)

/-- A join adds one notice and loses none. -/
theorem insertNotice_perm (n : Notice) (box : List Notice) : (insertNotice n box).Perm (n :: box) := by
  unfold insertNotice
  refine List.perm_middle.trans (List.Perm.cons n ?_)
  have h : box.filter (fun m => decide (n.body.cls < m.body.cls)) = box.filter (fun m => !decide (m.body.cls ≤ n.body.cls)) := by
    refine List.filter_congr fun m _ => ?_
    rw [← decide_not, decide_eq_decide]
    exact Nat.not_le.symm
  rw [h]
  exact List.filter_append_perm _ _

@[simp] theorem insertNotice_length (n : Notice) (box : List Notice) : (insertNotice n box).length = box.length + 1 := by
  simpa using (insertNotice_perm n box).length_eq

/-- A join keeps the order of the classes (R175). -/
theorem insertNotice_sorted {n : Notice} {box : List Notice} (h : box.Pairwise (fun a b => a.body.cls ≤ b.body.cls)) :
    (insertNotice n box).Pairwise (fun a b => a.body.cls ≤ b.body.cls) := by
  unfold insertNotice
  rw [List.pairwise_append]
  refine ⟨h.filter _, ?_, ?_⟩
  · rw [List.pairwise_cons]
    refine ⟨?_, h.filter _⟩
    intro a ha
    have := (List.mem_filter.mp ha).2
    rw [decide_eq_true_eq] at this
    omega
  · intro a ha b hb
    have h1 := (List.mem_filter.mp ha).2
    simp only [decide_eq_true_eq] at h1
    rcases List.mem_cons.mp hb with rfl | hb
    · exact h1
    · have h2 := (List.mem_filter.mp hb).2
      simp only [decide_eq_true_eq] at h2
      omega

/-- What the offer of a notice finds is no more than the outbox held. -/
theorem outboxFor_sublist (b : NoticeBody) (s : State) : (outboxFor b s).Sublist s.sbp.outbox := by
  unfold outboxFor
  split
  · exact List.filter_sublist
  · exact List.Sublist.refl _

theorem outboxFor_length_le (b : NoticeBody) (s : State) : (outboxFor b s).length ≤ s.sbp.outbox.length :=
  (outboxFor_sublist b s).length_le

/-- A notice other than a usage notice joins an outbox with room, and nothing else happens (R176). -/
theorem offerRaw_room {b : NoticeBody} {s : State} (hb : b.cls ≠ 6) (h : s.sbp.outbox.length < 32) :
    offerRaw b s = { s with sbp := { s.sbp with outbox := insertNotice ⟨s.sbp.nextRef, b⟩ (outboxFor b s), nextRef := s.sbp.nextRef + 1 } } := by
  have hl : (outboxFor b s).length < 32 := Nat.lt_of_le_of_lt (outboxFor_length_le b s) h
  have hr : outboxRefuses b s = false := by simp [outboxRefuses, hb, hl]
  simp [offerRaw, hr, hl]

/-- With room in the outbox an offer is a join and no more (R176). -/
theorem offerNotice_room {b : NoticeBody} {s : State} (hb : b.cls ≠ 6) (h : s.sbp.outbox.length < 32) :
    offerNotice b s =
      { s with sbp := { s.sbp with outbox := insertNotice ⟨s.sbp.nextRef, b⟩ (outboxFor b s), nextRef := s.sbp.nextRef + 1 } } := by
  have hk : ∀ t : State, t.alarms = s.alarms → getK .outboxOverflow t = getK .outboxOverflow s := fun t e => getK_congr e _
  unfold offerNotice offerPaced
  simp only [offerRaw_room hb h, Nat.lt_irrefl, ite_false]
  unfold overflowNotice
  rw [if_neg]
  rw [hk { s with sbp := { s.sbp with outbox := insertNotice ⟨s.sbp.nextRef, b⟩ (outboxFor b s), nextRef := s.sbp.nextRef + 1 } } rfl]
  cases (getK .outboxOverflow s).raised <;> simp

/-- A notice offered to an outbox with room stands in it. -/
theorem offerNotice_inOutbox {b : NoticeBody} {s : State} (hb : b.cls ≠ 6) (h : s.sbp.outbox.length < 32) :
    InOutbox b (offerNotice b s) := by
  rw [offerNotice_room hb h]
  exact ⟨⟨s.sbp.nextRef, b⟩, by simp [mem_insertNotice], rfl⟩

end Sys2Proof.Machine
end

