-- ==== Sys2Proof/Laws/Orders.lean ====
section
/-!
SUPPORT. The downstream order queue (R8 to R12): what a join, a whole offer and a withdrawal leave.
-/
namespace Sys2Proof.Machine

/-- The queue stands in the order of its groups (R8). -/
def InGroups (q : List QueuedOrder) : Prop := q.Pairwise (fun a b => orderGroup a.order ≤ orderGroup b.order)

/-- A join adds one order and loses none. -/
theorem enqueue_perm (x : QueuedOrder) (q : List QueuedOrder) : (enqueue x q).Perm (x :: q) := by
  unfold enqueue
  refine List.perm_middle.trans (List.Perm.cons x ?_)
  have h : q.filter (fun y => decide (orderGroup x.order < orderGroup y.order))
      = q.filter (fun y => !decide (orderGroup y.order ≤ orderGroup x.order)) := by
    refine List.filter_congr fun y _ => ?_
    rw [← decide_not, decide_eq_decide]
    exact Nat.not_le.symm
  rw [h]
  exact List.filter_append_perm _ _

@[simp] theorem enqueue_length (x : QueuedOrder) (q : List QueuedOrder) : (enqueue x q).length = q.length + 1 := by
  simpa using (enqueue_perm x q).length_eq

theorem mem_enqueue {x y : QueuedOrder} {q : List QueuedOrder} : y ∈ enqueue x q ↔ y = x ∨ y ∈ q := by
  rw [(enqueue_perm x q).mem_iff, List.mem_cons]

/-- A join keeps the groups in order (R8, R9). -/
theorem enqueue_inGroups {x : QueuedOrder} {q : List QueuedOrder} (h : InGroups q) : InGroups (enqueue x q) := by
  unfold InGroups enqueue at *
  rw [List.pairwise_append]
  refine ⟨h.filter _, ?_, ?_⟩
  · rw [List.pairwise_cons]
    refine ⟨fun a ha => ?_, h.filter _⟩
    have := (List.mem_filter.mp ha).2
    rw [decide_eq_true_eq] at this
    omega
  · intro a ha b hb
    have h1 := (List.mem_filter.mp ha).2
    rw [decide_eq_true_eq] at h1
    rcases List.mem_cons.mp hb with rfl | hb
    · exact h1
    · have h2 := (List.mem_filter.mp hb).2
      rw [decide_eq_true_eq] at h2
      omega

/-- An offer of several orders adds each of them. -/
theorem enqueueAll_length (l : List QueuedOrder) (s : State) :
    (enqueueAll l s).tli.queue.length = s.tli.queue.length + l.length := by
  unfold enqueueAll
  simp only
  induction l generalizing s with
  | nil => rfl
  | cons x l ih =>
    have := ih { s with tli := { s.tli with queue := enqueue x s.tli.queue } }
    simp only [List.foldl_cons, List.length_cons, enqueue_length] at *
    omega

theorem enqueueAll_inGroups {l : List QueuedOrder} {s : State} (h : InGroups s.tli.queue) :
    InGroups (enqueueAll l s).tli.queue := by
  unfold enqueueAll
  simp only
  induction l generalizing s with
  | nil => exact h
  | cons x l ih => exact ih (s := { s with tli := { s.tli with queue := enqueue x s.tli.queue } }) (enqueue_inGroups h)

@[simp] theorem markedOffer_length (m : OfferMark) (l : List PuOrder) : (markedOffer m l).length = l.length := by
  induction l with
  | nil => rfl
  | cons o l ih => cases l <;> simp_all [markedOffer]

/-- An offered order joins a queue that holds fewer than 64 orders, and leaves a full one as it is (R9). -/
theorem offerOrder_cases (p : Producer) (o : PuOrder) (s : State) :
    (s.tli.queue.length < 64 ∧ offerOrder p o s = { s with tli := { s.tli with queue := enqueue ⟨o, p, .plain⟩ s.tli.queue } })
      ∨ (64 ≤ s.tli.queue.length ∧ offerOrder p o s = s) := by
  unfold offerOrder queueHasRoom
  by_cases h : s.tli.queue.length + 1 ≤ 64
  · exact .inl ⟨by omega, by simp [h]⟩
  · exact .inr ⟨by omega, by simp [h]⟩

/-- The state but for the downstream order queue. -/
def State.withQueue (s : State) (q : List QueuedOrder) : State := { s with tli := { s.tli with queue := q } }

/-- An offer of orders touches the queue alone. -/
theorem enqueueAll_frame (l : List QueuedOrder) (s : State) : enqueueAll l s = s.withQueue (enqueueAll l s).tli.queue := rfl

/-- An offered order touches the queue alone. -/
theorem offerOrder_frame (p : Producer) (o : PuOrder) (s : State) : offerOrder p o s = s.withQueue (offerOrder p o s).tli.queue := by
  rcases offerOrder_cases p o s with ⟨-, h⟩ | ⟨-, h⟩ <;> rw [h] <;> rfl

/-- A withdrawal touches the queue alone (R12). -/
theorem withdrawOrders_frame (p : Producer) (w : PuOrder → Bool) (s : State) :
    (withdrawOrders p w s).1 = s.withQueue (withdrawOrders p w s).1.tli.queue := rfl

/-- A withdrawal removes orders and adds none (R12). -/
theorem withdrawOrders_sublist (p : Producer) (w : PuOrder → Bool) (s : State) :
    (withdrawOrders p w s).1.tli.queue.Sublist s.tli.queue := List.filter_sublist

/-- The number a withdrawal tells its producer is how many orders have gone (R12). -/
theorem withdrawOrders_count (p : Producer) (w : PuOrder → Bool) (s : State) :
    (withdrawOrders p w s).1.tli.queue.length + (withdrawOrders p w s).2 = s.tli.queue.length := by
  unfold withdrawOrders
  simp only
  induction s.tli.queue with
  | nil => rfl
  | cons x l ih => by_cases h : withdrawn p w x <;> simp [h] <;> omega

theorem queueHasRoom_iff (k : Nat) (s : State) : queueHasRoom k s = true ↔ s.tli.queue.length + k ≤ 64 := by
  simp [queueHasRoom]

/-- Whether the queue has room, and what stands in it, depends on the queue alone. -/
theorem queueHasRoom_congr {s t : State} (h : t.tli.queue = s.tli.queue) (k : Nat) : queueHasRoom k t = queueHasRoom k s := by
  simp only [queueHasRoom, h]

/-! ### The ASSIGN and the DROP_UNIT of a record -/

/-- An offered ASSIGN touches the queue and the record's own re-offer (R59). -/
theorem offerAssign_cases (u : UnitNo) (s : State) :
    (∃ x q, (getU u s).serial = some x ∧ (getU u s).provEqd = some q ∧ s.tli.queue.length < 64
        ∧ offerAssign u s = modE u (fun e => { e with assignWait := .idle })
            (s.withQueue (enqueue ⟨.assign u x q, .ec, .plain⟩ s.tli.queue)))
      ∨ ((getU u s).serial.isSome ∧ (getU u s).provEqd.isSome ∧ 64 ≤ s.tli.queue.length
        ∧ offerAssign u s = modE u (fun e => { e with assignWait := .waiting }) s)
      ∨ (((getU u s).serial = none ∨ (getU u s).provEqd = none) ∧ offerAssign u s = s) := by
  unfold offerAssign
  rcases hx : (getU u s).serial with _ | x
  · exact .inr (.inr ⟨.inl rfl, rfl⟩)
  rcases hq : (getU u s).provEqd with _ | q
  · exact .inr (.inr ⟨.inr rfl, rfl⟩)
  simp only
  by_cases h : s.tli.queue.length + 1 ≤ 64
  · refine .inl ⟨x, q, rfl, rfl, by omega, ?_⟩
    rw [if_pos ((queueHasRoom_iff 1 s).mpr h)]
    unfold offerOrder
    rw [if_pos ((queueHasRoom_iff 1 s).mpr h)]
    rfl
  · refine .inr (.inl ⟨rfl, rfl, by omega, ?_⟩)
    rw [if_neg (by rw [queueHasRoom_iff]; exact h)]

/-- An offered DROP_UNIT sets drop pending, and joins the queue or waits (R30). -/
theorem offerDrop_cases (p : Producer) (u : UnitNo) (s : State) :
    (s.tli.queue.length < 64 ∧ offerDrop p u s = modU u (fun r => { r with dropPending := true, dropWait := .idle })
        (s.withQueue (enqueue ⟨.dropUnit u, p, .plain⟩ s.tli.queue)))
      ∨ (64 ≤ s.tli.queue.length
        ∧ offerDrop p u s = modU u (fun r => { r with dropPending := true, dropWait := .waiting }) s) := by
  unfold offerDrop
  by_cases h : s.tli.queue.length + 1 ≤ 64
  · refine .inl ⟨by omega, ?_⟩
    rw [if_pos ((queueHasRoom_iff 1 s).mpr h)]
    unfold offerOrder
    rw [if_pos ((queueHasRoom_iff 1 s).mpr h)]
    rfl
  · refine .inr ⟨by omega, ?_⟩
    rw [if_neg (by rw [queueHasRoom_iff]; exact h)]

end Sys2Proof.Machine
end

