-- ==== Sys2Proof/Laws/Records.lean ====
section
/-!
SUPPORT. What the search lets go of a record (R130), what a retirement (R35), a direct freeing (R37) and a freeing from RETIRING
(R36) do to the record and leave of the others.
-/
namespace Sys2Proof.Machine

/-- `t` differs from `s` in what the isolation machine's offers touch and in nothing else: the machine, the downstream order
queue, and reports. -/
structure OnlySearch (s t : State) : Prop where
  pending    : t.pending = s.pending
  held       : t.held = s.held
  sc         : t.sc = { s.sc with presence := t.sc.presence }
  tli        : t.tli = { s.tli with queue := t.tli.queue }
  ut         : t.ut = s.ut
  ec         : t.ec = { s.ec with lostClaims := t.ec.lostClaims }
  gs         : t.gs = s.gs
  bm         : t.bm = s.bm
  lm         : t.lm = { s.lm with iso := t.lm.iso }
  band       : t.ucb.band = s.ucb.band
  paceDue    : t.ucb.paceDue = s.ucb.paceDue
  live       : ∀ u, (getA u t).live = (getA u s).live
  takeNo     : ∀ u, (getA u t).takeNo = (getA u s).takeNo
  snapshot   : ∀ u, (getA u t).snapshot.map Snapshot.contents = (getA u s).snapshot.map Snapshot.contents
  onLine     : ∀ u, (getA u t).snapshot.any (fun p => p.notice == .onLine) = (getA u s).snapshot.any (fun p => p.notice == .onLine)
  dv         : t.dv = { s.dv with lostBars := t.dv.lostBars }
  quiet      : t.sbp.quiet = s.sbp.quiet
  heardQuiet : t.sbp.heardQuiet = s.sbp.heardQuiet
  slot       : t.sbp.slot = s.sbp.slot
  lineFaults : t.sbp.lineFaults = s.sbp.lineFaults
  recvErrors : t.sbp.recvErrors = s.sbp.recvErrors
  refused    : t.sbp.refused = s.sbp.refused
  pus        : t.pus = s.pus
  freeIndex  : t.freeIndex = s.freeIndex

theorem OnlyReports.search {s t : State} (h : OnlyReports s t) : OnlySearch s t where
  pending := h.pending
  held := h.held
  sc := h.sc
  tli := by rw [h.tli]
  ut := h.ut
  ec := h.ec
  gs := h.gs
  bm := h.bm
  lm := by rw [h.lm]
  band := h.band
  paceDue := h.paceDue
  live := h.live
  takeNo := h.takeNo
  snapshot := h.snapshot
  onLine := h.onLine
  dv := h.dv
  quiet := h.quiet
  heardQuiet := h.heardQuiet
  slot := h.slot
  lineFaults := h.lineFaults
  recvErrors := h.recvErrors
  refused := h.refused
  pus := h.pus
  freeIndex := h.freeIndex

theorem OnlySearch.refl (s : State) : OnlySearch s s := (OnlyReports.refl s).search

theorem OnlySearch.trans {s t v : State} (h : OnlySearch s t) (k : OnlySearch t v) : OnlySearch s v where
  pending := k.pending.trans h.pending
  held := k.held.trans h.held
  sc := by rw [k.sc, h.sc]
  tli := by rw [k.tli, h.tli]
  ut := k.ut.trans h.ut
  ec := by rw [k.ec, h.ec]
  gs := k.gs.trans h.gs
  bm := k.bm.trans h.bm
  lm := by rw [k.lm, h.lm]
  band := k.band.trans h.band
  paceDue := k.paceDue.trans h.paceDue
  live u := (k.live u).trans (h.live u)
  takeNo u := (k.takeNo u).trans (h.takeNo u)
  snapshot u := (k.snapshot u).trans (h.snapshot u)
  onLine u := (k.onLine u).trans (h.onLine u)
  dv := by rw [k.dv, h.dv]
  quiet := k.quiet.trans h.quiet
  heardQuiet := k.heardQuiet.trans h.heardQuiet
  slot := k.slot.trans h.slot
  lineFaults := k.lineFaults.trans h.lineFaults
  recvErrors := k.recvErrors.trans h.recvErrors
  refused := k.refused.trans h.refused
  pus := k.pus.trans h.pus
  freeIndex := k.freeIndex.trans h.freeIndex

theorem modIso_search (f : Isolation → Isolation) (s : State) : OnlySearch s (modIso f s) := by
  constructor <;> intros <;> rfl

theorem enqueueAll_search (l : List QueuedOrder) (s : State) : OnlySearch s (enqueueAll l s) := by
  constructor <;> intros <;> rfl

theorem offerClosings_search (l : List ClosingOffer) (s : State) : OnlySearch s (offerClosings l s) := by
  induction l generalizing s with
  | nil => exact modIso_search _ _
  | cons o l ih =>
    unfold offerClosings
    split
    · exact (enqueueAll_search _ _).trans ((modIso_search _ _).trans (ih _))
    · exact modIso_search _ _

theorem addClosings_search (l : List ClosingOffer) (s : State) : OnlySearch s (addClosings l s) := by
  unfold addClosings
  split
  · exact .refl s
  split
  · exact (modIso_search _ _).trans (offerClosings_search _ _)
  · exact modIso_search _ _

theorem verdictUnlocated_search (s : State) : OnlySearch s (verdictUnlocated s) :=
  (modIso_search _ _).trans ((occur_reports _ _ _).search.trans (addClosings_search _ _))

/-- A SPEAK_UNIT step sets no hush flag when it is taken (R119). -/
theorem offerStep_speak_search (s : State) : OnlySearch s (offerStep .speak s) := by
  unfold offerStep
  simp only
  split
  · exact modIso_search _ _
  split
  · exact (enqueueAll_search _ _).trans (modIso_search _ _)
  · exact modIso_search _ _

/-- The removal of a record from the search changes no record (R130). -/
theorem isoRemove_search (u : UnitNo) (s : State) : OnlySearch s (isoRemove u s) := by
  unfold isoRemove
  split
  · exact .refl s
  · exact .refl s
  · exact modIso_search _ _
  · simp only
    split
    · exact (modIso_search _ _).trans (verdictUnlocated_search _)
    split
    · exact modIso_search _ _
    split
    · exact (modIso_search _ _).trans ((modIso_search _ _).trans (modIso_search _ _))
    · exact (modIso_search _ _).trans ((modIso_search _ _).trans (offerStep_speak_search _))

@[simp] theorem isoRemove_ut (u : UnitNo) (s : State) : (isoRemove u s).ut = s.ut := (isoRemove_search u s).ut

/-! ### Billing -/

theorem saturation_reports (u : UnitNo) (a b : Bool) (s : State) : OnlyReports s (saturation u a b s) := by
  unfold saturation
  split
  · exact occur_reports _ _ _
  · exact .refl s

/-- The closing of a unit's billing changes no record (R148). -/
@[simp] theorem closeBilling_ut (u : UnitNo) (s : State) : (closeBilling u s).ut = s.ut := by
  unfold closeBilling
  split
  · exact (pace_reports _).ut
  · split
    · rfl
    · exact (pace_reports _).ut.trans ((saturation_reports _ _ _ _).ut)

/-- The closing of a unit's billing leaves the EC's own lists as they are (R148). -/
theorem closeBilling_ec (u : UnitNo) (s : State) : ∃ l, (closeBilling u s).ec = { s.ec with lostClaims := l } := by
  unfold closeBilling
  split
  · exact ⟨_, (pace_reports _).ec⟩
  · split
    next => exact ⟨s.ec.lostClaims, rfl⟩
    next p _ _ =>
      refine ⟨(pace (mergeFinal u p p.notice s)).ec.lostClaims, ?_⟩
      rw [(pace_reports _).ec]
      unfold mergeFinal
      simp only
      rw [(saturation_reports _ _ _ _).ec]
      rfl

@[simp] theorem closeBilling_tli (u : UnitNo) (s : State) : (closeBilling u s).tli = s.tli := by
  unfold closeBilling
  split
  · exact (pace_reports _).tli
  · split
    · rfl
    · exact (pace_reports _).tli.trans ((saturation_reports _ _ _ _).tli)

@[simp] theorem directFreeBilling_ut (u : UnitNo) (s : State) : (directFreeBilling u s).ut = s.ut := rfl
@[simp] theorem directFreeBilling_ec (u : UnitNo) (s : State) : (directFreeBilling u s).ec = s.ec := rfl
@[simp] theorem directFreeBilling_tli (u : UnitNo) (s : State) : (directFreeBilling u s).tli = s.tli := rfl

/-! ### Retirement (R35) -/

@[simp] theorem leaveRangingQueue_ut (u : UnitNo) (s : State) : (leaveRangingQueue u s).ut = s.ut := rfl
@[simp] theorem withdrawOrders_ut (p : Producer) (w : PuOrder → Bool) (s : State) : (withdrawOrders p w s).1.ut = s.ut := rfl

/-- What a retirement writes into the record (R35). -/
def retiredRecord (r : UnitRecord) : UnitRecord :=
  { r with state := .retiring, provEqd := none, lostHold := 0, claimRefresh := 0, poll := 0 }

theorem retire_ut (u : UnitNo) (s : State) : (retire u s).ut = (setU u (retiredRecord (getU u s)) s).ut := by
  unfold retire
  simp only [closeBilling_ut, isoRemove_ut, withdrawOrders_ut, leaveRangingQueue_ut]
  rfl

/-- The record after its retirement, and every other (R35). -/
theorem getU_retire (u v : UnitNo) (s : State) :
    getU v (retire u s) = if u = v then retiredRecord (getU u s) else getU v s := by
  rw [getU_congr (retire_ut u s) v, getU_setU]

/-- The ranging queue after a retirement (R35). -/
theorem retire_rangingQueue (u : UnitNo) (s : State) : (retire u s).ec.rangingQueue = s.ec.rangingQueue.filter (· ≠ u) := by
  have key : ∀ t : State, (closeBilling u (isoRemove u t)).ec.rangingQueue = t.ec.rangingQueue := by
    intro t
    obtain ⟨l, h⟩ := closeBilling_ec u (isoRemove u t)
    rw [h]
    simp only
    rw [(isoRemove_search _ _).ec]
  unfold retire
  simp only [key]
  rfl

/-! ### Freeing (R36, R37) -/

theorem offerDrop_ut (p : Producer) (u : UnitNo) (s : State) :
    ∃ w, (offerDrop p u s).ut = (setU u { getU u s with dropPending := true, dropWait := w } s).ut := by
  rcases offerDrop_cases p u s with ⟨-, h⟩ | ⟨-, h⟩ <;> rw [h]
  · exact ⟨.idle, rfl⟩
  · exact ⟨.waiting, rfl⟩

/-- The record after a direct freeing, and every other (R37): every field as at reset, but a DROP_UNIT from RANGING sets drop
pending. -/
theorem getU_directFree (u v : UnitNo) (s : State) :
    ∃ w, getU v (directFree u s) =
      if u = v then { freedRecord 0 with dropPending := decide ((getU u s).state = .ranging), dropWait := w } else getU v s := by
  unfold directFree
  simp only
  by_cases hr : (getU u s).state = .ranging
  · obtain ⟨w, hw⟩ := offerDrop_ut .ec u (setU u (freedRecord 0) (withdrawOrders .ec (isAssignFor u)
      (directFreeBilling u (modE u freedEc (leaveRangingQueue u s)))).1)
    have key : ∀ t : State, t.ut = (offerDrop .ec u (setU u (freedRecord 0) (withdrawOrders .ec (isAssignFor u)
        (directFreeBilling u (modE u freedEc (leaveRangingQueue u s)))).1)).ut → getU v t =
        if u = v then { freedRecord 0 with dropPending := decide ((getU u s).state = .ranging), dropWait := w } else getU v s := by
      intro t e
      rw [getU_congr (e.trans hw) v, getU_setU]
      by_cases huv : u = v
      · simp [huv]
        subst huv
        simp [hr]
      · rw [if_neg huv, if_neg huv, getU_setU, if_neg huv]
        rfl
    refine ⟨w, ?_⟩
    rw [if_pos hr]
    split
    · exact key _ ((queueReleased_reports _ _ _ _).ut.trans (isoRemove_ut u _))
    · exact key _ (isoRemove_ut u _)
  · have key : ∀ t : State, t.ut = (setU u (freedRecord 0)
        (directFreeBilling u (modE u freedEc (leaveRangingQueue u s)))).ut → getU v t =
        if u = v then { freedRecord 0 with dropPending := decide ((getU u s).state = .ranging), dropWait := .idle }
        else getU v s := by
      intro t e
      rw [getU_congr e v, getU_setU]
      by_cases huv : u = v
      · subst huv
        simp [hr, freedRecord, UnitRecord.blank]
      · rw [if_neg huv, if_neg huv]
        rfl
    refine ⟨.idle, ?_⟩
    rw [if_neg hr]
    split
    · exact key _ (queueReleased_reports _ _ _ _).ut
    · exact key _ rfl

/-! ### Entry to RANGING (R58) -/

/-- What an entry to RANGING writes into the record (R58). -/
def rangingRecord (returning : Bool) (prov : Option Nat) (r : UnitRecord) : UnitRecord :=
  { r with state := .ranging, returning := returning, provEqd := prov, attempts := 0, corrHold := 0, claimRefresh := 0,
           lostHold := 0, claimSettle := 0, settleStarted := false, tailEvents := 0, tailSpan := 0 }

theorem getU_enterRanging (u v : UnitNo) (b : Bool) (p : Option Nat) (s : State) :
    getU v (enterRanging u b p s) = if u = v then rangingRecord b p (getU u s) else getU v s := by
  unfold enterRanging
  rw [getU_modU]
  rfl

/-- The record joins the tail of the ranging queue, and stands there once (R57). -/
theorem enterRanging_rangingQueue (u : UnitNo) (b : Bool) (p : Option Nat) (s : State) :
    (enterRanging u b p s).ec.rangingQueue = s.ec.rangingQueue.filter (· ≠ u) ++ [u] := rfl

end Sys2Proof.Machine
end

