-- ==== Sys2Proof/Laws/Billing.lean ====
section
/-!
SUPPORT. What the merge of two counter sets gives, and what the closing of a unit's billing leaves of its account (R148).
-/
namespace Sys2Proof.Machine

/-! ### Merging (R139, R148) -/

/-- Some entry of a table of Bools is set. -/
theorem any_toList_iff {n : Nat} (v : Vector Bool n) : v.toList.any id = true ↔ ∃ i : Fin n, v.get i = true := by
  simp only [List.any_eq_true, id_eq, List.mem_iff_getElem]
  constructor
  · rintro ⟨x, ⟨i, h, rfl⟩, hx⟩
    exact ⟨⟨i, by simpa using h⟩, by simpa [Vector.get] using hx⟩
  · rintro ⟨i, hi⟩
    exact ⟨_, ⟨i.val, by simp, rfl⟩, by simpa [Vector.get] using hi⟩

theorem mergeSets_merged (a c : CounterSet) : Merged a c (mergeSets a c) := by
  refine ⟨fun b => ⟨vzip_get _ _ _ b, vzip_get _ _ _ b⟩, rfl, rfl, ?_⟩
  have full : ∀ n k, overCount n k = true ↔ 281474976710655 < n + k := fun n k => decide_eq_true_iff
  simp only [mergeSets, Bool.or_eq_true, any_toList_iff, vzip_get, full, exists_or]
  tauto

/-! ### The account after a closing (R148) -/

/-- A report leaves the unit's account as it is but for where its snapshot stands with the shelf bus. -/
theorem OnlyReports.account {s t : State} (h : OnlyReports s t) (u : UnitNo) {p : Snapshot} (hp : (getA u s).snapshot = some p) :
    ∃ q, (getA u t).snapshot = some q ∧ q.contents = p.contents := by
  have := h.snapshot u
  rw [hp] at this
  simpa using this

/-- The kind stays raised through a report. -/
theorem raised_modK {j k : AlarmKind} {f : AlarmRecord → AlarmRecord} {s : State} (hf : ∀ a, a.raised = true → (f a).raised = true)
    (h : (getK k s).raised = true) : (getK k (modK j f s)).raised = true := by
  rw [getK_modK]
  split
  next e => subst e; exact hf _ h
  next => exact h

theorem latchRecord_raised (x : Option Serial) (a : AlarmRecord) : (latchRecord x a).raised = true := by
  unfold latchRecord
  cases h : a.raised
  · simp
  · cases x with
    | none => simp
    | some v =>
      simp only [Bool.not_true, Bool.false_eq_true, if_false]
      split
      · rfl
      · rfl

theorem noteLost_raised {k : AlarmKind} {s : State} (n : Notice) (h : (getK k s).raised = true) :
    (getK k (noteLost n s)).raised = true := by
  unfold noteLost
  split <;> try exact h
  · split
    · exact raised_modK (fun _ h => h) h
    · exact h
  · split <;> exact h

theorem usageEvicted_alarms (n : Notice) (s : State) : (usageEvicted n s).alarms = s.alarms := by
  unfold usageEvicted; split <;> rfl

theorem offerRaw_raised {k : AlarmKind} {s : State} (b : NoticeBody) (h : (getK k s).raised = true) :
    (getK k (offerRaw b s)).raised = true := by
  unfold offerRaw
  simp only
  split
  · exact raised_modK (fun a _ => latchRecord_raised none a) (noteLost_raised _ h)
  split
  · exact h
  split
  · refine raised_modK (fun a _ => latchRecord_raised none a) ?_
    rw [getK_congr (usageEvicted_alarms _ _)]
    exact noteLost_raised _ h
  · exact h

theorem paceLoop_raised {k : AlarmKind} (n : Nat) {s : State} (h : (getK k s).raised = true) :
    (getK k (paceLoop n s)).raised = true := by
  induction n generalizing s with
  | zero => exact h
  | succ n ih =>
    unfold paceLoop
    split
    · split
      · exact h
      · split
        · exact offerRaw_raised _ h
        · exact ih (offerRaw_raised _ h)
    · exact h

theorem offerPaced_raised {k : AlarmKind} {s : State} (b : NoticeBody) (h : (getK k s).raised = true) :
    (getK k (offerPaced b s)).raised = true := by
  unfold offerPaced
  simp only
  split
  · exact paceLoop_raised _ (offerRaw_raised _ h)
  · exact offerRaw_raised _ h

theorem overflowNotice_raised {k : AlarmKind} {s : State} (a : State) (h : (getK k s).raised = true) :
    (getK k (overflowNotice a s)).raised = true := by
  unfold overflowNotice
  split
  · exact offerPaced_raised _ h
  · exact h

/-- No offer clears an alarm kind (R189). -/
theorem offerNotice_raised {k : AlarmKind} {s : State} (b : NoticeBody) (h : (getK k s).raised = true) :
    (getK k (offerNotice b s)).raised = true := overflowNotice_raised _ (offerPaced_raised _ h)

/-- No run of pacing clears an alarm kind (R189). -/
theorem pace_raised {k : AlarmKind} {s : State} (h : (getK k s).raised = true) : (getK k (pace s)).raised = true :=
  overflowNotice_raised _ (paceLoop_raised _ h)

/-- A kind that has occurred is raised (R186). -/
theorem occur_raised (k : AlarmKind) (x : Option Serial) (s : State) : (getK k (occur k x s)).raised = true := by
  have h : (getK k (latch k x s)).raised = true := by simp [latch, latchRecord_raised]
  unfold occur
  split
  · exact offerNotice_raised _ h
  · exact h

theorem movedFinal_makeFinal (u : UnitNo) (s : State) : MovedFinal u s (makeFinal u s) := by
  unfold MovedFinal makeFinal
  rw [getA_modA_same]
  exact ⟨rfl, rfl, _, rfl, rfl, rfl, rfl, rfl, rfl⟩

theorem mergedFinal_mergeFinal (u : UnitNo) (p : Snapshot) (st : NoticeState) (s : State) :
    MergedFinal u p s (mergeFinal u p st s) := by
  unfold mergeFinal
  simp only
  generalize ht : modA u _ s = t
  have ha : getA u t = { getA u s with
      live := CounterSet.zero
      snapshot := some { p with counters := mergeSets p.counters (getA u s).live, isFinal := true,
                                disputed := (getU u s).disputed, notice := st, closePending := false } } := by
    rw [← ht, getA_modA_same]
  have r := saturation_reports u p.counters.saturated (mergeSets p.counters (getA u s).live).saturated t
  obtain ⟨q, hq, hc⟩ := r.account u (congrArg Account.snapshot ha)
  refine ⟨by rw [r.live, ha], by rw [r.takeNo, ha], q, hq, ?_⟩
  simp only [Snapshot.contents, Snapshot.mk.injEq] at hc
  obtain ⟨h1, h2, h3, h4, -, h5⟩ := hc
  rw [h1, h2, h3, h4, h5]
  refine ⟨mergeSets_merged _ _, rfl, rfl, rfl, rfl, fun hp hm => ?_⟩
  unfold saturation
  rw [hp, hm]
  exact occur_raised _ _ _

/-- A closed final snapshot stays so through pacing (R145, R148). -/
theorem MovedFinal.pace {u : UnitNo} {s t : State} (h : MovedFinal u s t) : MovedFinal u s (pace t) := by
  obtain ⟨hl, hn, q, hq, h1, h2, h3, h4, h5⟩ := h
  have r := pace_reports t
  obtain ⟨v, hv, hc⟩ := r.account u hq
  simp only [Snapshot.contents, Snapshot.mk.injEq] at hc
  obtain ⟨c1, c2, c3, c4, -, c5⟩ := hc
  exact ⟨by rw [r.live, hl], by rw [r.takeNo, hn], v, hv, by rw [c1, h1], by rw [c2, h2, r.takeNo], by rw [c3, h3], by rw [c4, h4],
    by rw [c5, h5]⟩

theorem MergedFinal.pace {u : UnitNo} {p : Snapshot} {s t : State} (h : MergedFinal u p s t) : MergedFinal u p s (pace t) := by
  obtain ⟨hl, hn, q, hq, h1, h2, h3, h4, h5, h6⟩ := h
  have r := pace_reports t
  obtain ⟨v, hv, hc⟩ := r.account u hq
  simp only [Snapshot.contents, Snapshot.mk.injEq] at hc
  obtain ⟨c1, c2, c3, c4, -, c5⟩ := hc
  exact ⟨by rw [r.live, hl], by rw [r.takeNo, hn], v, hv, by rw [c1]; exact h1, by rw [c2, h2], by rw [c3, h3], by rw [c4, h4],
    by rw [c5, h5], fun hp hv => pace_raised (h6 hp (by rw [← c1]; exact hv))⟩

/-- What the closing of a unit's billing does to its account (R148). -/
theorem billingClosed_closeBilling (u : UnitNo) (s : State) : BillingClosed u s (closeBilling u s) := by
  unfold closeBilling
  cases hs : (getA u s).snapshot with
  | none => exact ⟨fun _ => (movedFinal_makeFinal u s).pace, fun p h => by simp [hs] at h, fun p h => by simp [hs] at h⟩
  | some p =>
    refine ⟨fun h => by simp [hs] at h, fun q hq hn => ?_, fun q hq hn => ?_⟩
    · rw [hs] at hq; obtain rfl := Option.some.inj hq
      simp only [if_neg hn]
      exact (mergedFinal_mergeFinal u p p.notice s).pace
    · rw [hs] at hq; obtain rfl := Option.some.inj hq
      simp only [if_pos hn]
      rw [getA_modA_same]
      exact ⟨rfl, rfl, rfl⟩

end Sys2Proof.Machine
end

