-- ==== Sys2Proof/Laws/Premises.lean ====
section
/-!
SUPPORT. What listing, a frame and a power-down do to the line of one premises unit, and the readings of a re-offer and of the
shelf bus's count of recessive bits after an update.
-/
namespace Sys2Proof.Machine

/-! ### Re-offers -/

@[simp] theorem Reoffer.tick_idle : Reoffer.idle.tick = .idle := rfl
@[simp] theorem Reoffer.tick_waiting : Reoffer.waiting.tick = .due := rfl
@[simp] theorem Reoffer.tick_due : Reoffer.due.tick = .due := rfl
@[simp] theorem Reoffer.tick_dueAgain : Reoffer.dueAgain.tick = .due := rfl

theorem Reoffer.isDue_iff (r : Reoffer) : r.isDue = true ↔ r = .due ∨ r = .dueAgain := by cases r <;> simp [Reoffer.isDue]

theorem Reoffer.lose_cases (r : Reoffer) : r.lose = if r = .due ∨ r = .dueAgain then .dueAgain else .waiting := by
  cases r <;> simp [Reoffer.lose]

theorem Reoffer.made_of_isDue {r : Reoffer} (h : r.isDue = true) : r.made = if r = .due then .idle else .waiting := by
  cases r <;> simp_all [Reoffer.made, Reoffer.isDue]

/-! ### `lineAt` writes the count of recessive bits alone -/

@[simp] theorem lineAt_quiet (k : Nat) (b : Bool) (s : State) : (lineAt k b s).sbp.quiet = min 12 k := rfl
@[simp] theorem lineAt_heardQuiet (k : Nat) (b : Bool) (s : State) : (lineAt k b s).sbp.heardQuiet = b := rfl
@[simp] theorem lineAt_outbox (k : Nat) (b : Bool) (s : State) : (lineAt k b s).sbp.outbox = s.sbp.outbox := rfl
@[simp] theorem lineAt_slot (k : Nat) (b : Bool) (s : State) : (lineAt k b s).sbp.slot = s.sbp.slot := rfl
@[simp] theorem lineAt_nextRef (k : Nat) (b : Bool) (s : State) : (lineAt k b s).sbp.nextRef = s.sbp.nextRef := rfl
@[simp] theorem lineAt_recvErrors (k : Nat) (b : Bool) (s : State) : (lineAt k b s).sbp.recvErrors = s.sbp.recvErrors := rfl
@[simp] theorem lineAt_refused (k : Nat) (b : Bool) (s : State) : (lineAt k b s).sbp.refused = s.sbp.refused := rfl
@[simp] theorem lineAt_lineFaults (k : Nat) (b : Bool) (s : State) : (lineAt k b s).sbp.lineFaults = s.sbp.lineFaults := rfl

theorem lineAt_frame (k : Nat) (b : Bool) (s : State) : lineAt k b s = { s with sbp := (lineAt k b s).sbp } := rfl

/-- What the SBP is sending, by its slot (R177). -/
theorem sendingNotice_eq_some_iff (s : State) (m : Notice) : sendingNotice s = some m ↔ s.sbp.slot = some ⟨m, true⟩ := by
  unfold sendingNotice
  rcases s.sbp.slot with _ | ⟨n, b⟩
  · simp
  · cases b <;> simp

/-- Nothing is received while the SBP is sending (R173). -/
theorem receiveStep_sending {s : State} {m : Notice} (h : s.sbp.slot = some ⟨m, true⟩) (heard : Reception) (bytes : List Byte) :
    receiveStep heard bytes s = lineAt 0 s.sbp.heardQuiet s := by
  simp [receiveStep, (sendingNotice_eq_some_iff s m).2 h]

/-! ### One line of the premises units' table -/

@[simp] theorem puList_others (x : Serial) (t : PuTable) : (puList x t).others = t.others := by
  unfold puList; split <;> rfl

@[simp] theorem puList_othersSend (x : Serial) (t : PuTable) : (puList x t).othersSend = t.othersSend := by
  unfold puList; split <;> rfl

@[simp] theorem puList_draw (x : Serial) (t : PuTable) : (puList x t).draw = t.draw := by
  unfold puList; split <;> rfl

/-- Giving one premises unit its own line changes what no premises unit holds or sends. -/
@[simp] theorem puLine_puList (x y : Serial) (t : PuTable) : puLine y (puList x t) = puLine y t := by
  unfold puList
  split
  · rfl
  · rename_i hx
    unfold puLine
    simp only [List.find?_append]
    cases hy : t.listed.find? (fun e => e.serial == y) with
    | some e => simp
    | none =>
      by_cases h : x = y
      · subst h; simp
      · simp [h]

/-- The line found for a serial carries that serial. -/
@[simp] theorem puLine_serial (x : Serial) (t : PuTable) : (puLine x t).serial = x := by
  unfold puLine
  cases h : t.listed.find? (fun e => e.serial == x) with
  | some e => simpa using List.find?_some h
  | none => rfl

/-- The lists that name several premises units give each its line. -/
theorem puLine_foldl_puList (l : List Serial) (y : Serial) (t : PuTable) :
    puLine y (l.foldl (fun t x => puList x t) t) = puLine y t := by
  induction l generalizing t with
  | nil => rfl
  | cons x l ih => simp [ih]

/-- A premises unit is listed once it has been given its line. -/
theorem mem_puList (x : Serial) (t : PuTable) : ∃ e ∈ (puList x t).listed, e.serial = x := by
  unfold puList
  split
  · rename_i h
    simpa using h
  · exact ⟨⟨x, t.others, t.othersSend⟩, by simp, rfl⟩

@[simp] theorem puHears_serial (f : Frame) (missed : List Serial) (e : PuEntry) : (puHears f missed e).serial = e.serial := by
  unfold puHears; split <;> rfl

end Sys2Proof.Machine
end

