-- ==== Sys2Proof/WellFormed.lean ====
section
/-!
DEFINITION. Which commands an event source can send: the ranges that the operand types do not already give. A notice's or an
order's own field checks (BAD_FIELD, R152, R173) are no part of this: a part receives those and answers them.
-/
namespace Sys2Proof

/-- A monitor reading is 0..2,047, and a sample is read over at least one of them (R17). -/
def wfReadings (l : List Nat) : Bool := !l.isEmpty && l.all (· ≤ 2047)

/-- A burst's delimiter stands in an arrival round of 400,000 bits (R2), its preamble was read (R17), and a payload is whole
grains of four bytes (0.5, "Grain"), at most 2,040 of them (R83). -/
def wfBurst (b : Burst) : Bool :=
  decide (b.pos < 400000) && wfReadings b.preamble && decide (b.payload.length % 4 = 0) && decide (b.payload.length ≤ 8160)

/-- The round number of a frame is 0..65,535 (R1). -/
def wfRound (n : Nat) : Bool := decide (n < 65536)

/-- `wellFormed i`: the operands of `i` lie in the ranges the spec gives them. -/
def wellFormed : Instr → Bool
  | .resetRelease _ c => c.powerOn || c.brownOut || c.resetPin
  | .roundMarker m => decide m.Nodup
  | .intervalClose => true
  | .loadEntryAgeOut _ => true
  | .discoveryResponse n b => wfRound n && wfBurst b
  | .strangerAgeOut _ => true
  | .burstClassify n _ f => wfRound n && f.all wfBurst
  | .rangingAttempt n _ f => wfRound n && f.all wfBurst
  | .darkSample n l => wfRound n && wfReadings l
  | .holdoffExpiry => true
  | .stepReoffer => true
  | .hushFlagsCleared => true
  | .guardSample n _ l => wfRound n && wfReadings l
  | .tailSpanExpiry _ => true
  | .barSerialReoffer _ => true
  | .claimSettleExpiry _ => true
  | .assignReoffer _ => true
  | .lostHoldExpiry _ => true
  | .dropUnitReoffer _ => true
  | .coolingExpiry _ => true
  | .claimRefreshExpiry _ => true
  | .claimReoffer _ => true
  | .noticeReceived _ _ => true
  | .orderUnknownKind _ k => decide (k.toNat < 1) || decide (10 < k.toNat)
  | .settings _ _ => true
  | .permit _ _ _ => true
  | .withdraw _ _ => true
  | .revoke _ _ => true
  | .profile _ _ _ => true
  | .band _ _ => true
  | .take _ => true
  | .alarmClear _ _ => true
  | .unbar _ _ => true
  | .restart _ => true
  | .restartEnd => true
  | .claimNotice _ _ _ _ => true
  | .releasedClaimNotice _ _ _ => true
  | .claimEntryExpiry _ _ => true
  | .barNotice _ _ _ => true
  | .barReoffer _ => true
  | .loadNotice _ _ => true
  | .presenceNotice _ _ _ => true
  | .presenceReoffer => true
  | .listenEnd => true
  | .enlistExpiry => true
  | .transmitStart _ => true
  | .arbitrationLost => true
  | .lineFault => true
  | .noticeSent => true
  | .usagePacingRetry => true
  | .alarmReoffer _ => true
  | .downstreamPacketArrival _ d => !d.isEmpty
  | .resetHeld => true
  | .puPoweredDown _ => true

end Sys2Proof
end

