-- ==== Sys2Proof/Tests/Slice0.lean ====
section
/-!
SUPPORT. The model's own tests: what the well-formedness check refuses, a few values that the spec's tables and worked numbers
fix, and for every statement with hypotheses a witness that meets them, clause by clause, at the edge of their ranges.
-/
namespace Sys2Proof.Tests

open Sys2Proof Sys2Proof.Machine

set_option maxRecDepth 100000
set_option Elab.async false

/-! ### Small states and operands -/

/-- The part in SERVING with the default settings and an empty outbox. -/
def served : State :=
  { State.reset with
    sc := { State.reset.sc with phase := .serving, listenCount := 0, settings := some Settings.defaults }
    sbp := { State.reset.sbp with outbox := [] } }

/-- A record in state `st` with serial `x`: m 10, s 0, pk 16, W 1. -/
def held (st : RecState) (x : Nat) : UnitRecord :=
  { UnitRecord.blank with state := st, serial := some (BitVec.ofNat 64 x), profile := ⟨10, 0, 16, 1⟩, eqd := some 20000,
                          everActive := true, credit := 3072, level := 500, poll := 8, claimRefresh := 4000 }

/-- An order head from source 16, the lowest, to this station. -/
def toUs : OrderHead := ⟨16, 0, 7⟩

/-- An order head from source 30, the highest, to all stations. -/
def toAll : OrderHead := ⟨30, 31, 7⟩

/-- A notice head from the last peer, to all stations. -/
def peer15 : NoticeHead := ⟨15, 31⟩

/-- A notice head from the first peer, to this station. -/
def peer1 : NoticeHead := ⟨1, 0⟩

/-- A header with its check. -/
def header (unit kind report dlen spread : Nat) : BurstHeader :=
  let h : BurstHeader := ⟨BitVec.ofNat 8 unit, BitVec.ofNat 8 kind, BitVec.ofNat 16 report, BitVec.ofNat 16 dlen,
    BitVec.ofNat 8 spread, 0⟩
  { h with check := crcHeader (headerBytes h) }

/-- A burst with its check. -/
def burst (pos level : Nat) (h : BurstHeader) (payload : List Byte) : Burst :=
  ⟨pos, [level], h, payload, crcBurst (headerBytes h ++ [h.check] ++ payload)⟩

/-- A grant record that nothing has answered. -/
def grant (unit : Nat) (kind : GrantKind) (start length pc pe : Nat) : GrantRecord :=
  newGrant unit kind start length pc pe false

/-- `s` holding the plan of round 9 with these grants. -/
def planned (l : List GrantRecord) (s : State) : State := { s with gs := { s.gs with plans := [⟨9, l, 0⟩] } }

/-- `s` with `n` HUSH_ALL orders in the queue. -/
def queued (n : Nat) (s : State) : State :=
  { s with tli := { s.tli with queue := List.replicate n ⟨.hushAll, .lm, .plain⟩ } }

/-- `s` with `n` load-free class 3 notices in the outbox. -/
def boxed (n : Nat) (s : State) : State :=
  { s with sbp := { s.sbp with outbox := List.replicate n ⟨0, .claim 1 0 .held 0⟩ } }

/-- The next state, where there is one. -/
def after (c : Instr) (s : State) : State :=
  match exec c s with
  | .next t => t
  | .fault _ => s
  | .refused _ => s

/-! ### What the well-formedness check refuses -/

theorem test_refuses_reset_without_cause : wellFormed (.resetRelease ⟨0, .n⟩ ⟨false, false, false⟩) = false := by decide

theorem test_refuses_serial_missed_twice : wellFormed (.roundMarker [5, 5]) = false := by decide

theorem test_refuses_round_65536 : wellFormed (.darkSample 65536 [0]) = false
    ∧ wellFormed (.guardSample 65536 0 [0]) = false ∧ wellFormed (.burstClassify 65536 0 none) = false
    ∧ wellFormed (.rangingAttempt 65536 0 none) = false
    ∧ wellFormed (.discoveryResponse 65536 (burst 0 0 (header 64 4 0 8 0) [])) = false := by decide +kernel

theorem test_refuses_readings : wellFormed (.darkSample 0 []) = false ∧ wellFormed (.darkSample 0 [2048]) = false
    ∧ wellFormed (.guardSample 0 0 []) = false := by decide

theorem test_refuses_bursts : wfBurst (burst 400000 0 (header 0 1 0 0 0) []) = false
    ∧ wfBurst { burst 0 0 (header 0 1 0 0 0) [] with preamble := [] } = false
    ∧ wfBurst (burst 0 2048 (header 0 1 0 0 0) []) = false
    ∧ wfBurst (burst 0 0 (header 0 1 0 0 0) [1, 2, 3]) = false
    ∧ wfBurst { burst 0 0 (header 0 1 0 0 0) [] with payload := List.replicate 8164 0 } = false := by decide +kernel

theorem test_refuses_known_kind : wellFormed (.orderUnknownKind toUs 1) = false
    ∧ wellFormed (.orderUnknownKind toUs 10) = false := by decide

theorem test_refuses_empty_packet : wellFormed (.downstreamPacketArrival 0 []) = false := by decide

/-! ### Values that the spec fixes -/

/-- Two of the generators with their presets on "123456789": the values every catalogue of cyclic checks gives (R14, R172). -/
theorem test_checks : crcNotice [49, 50, 51, 52, 53, 54, 55, 56, 57] = 0x29B1
    ∧ crcHeader [49, 50, 51, 52, 53, 54, 55, 56, 57] = 0xF4 := by decide +kernel

/-- The worked example of 8.2.1, and the two ends of R156. -/
theorem test_factor : factorOf 30000 34000 = 225 ∧ factorOf 30000 37000 = 207 ∧ factorOf 400000 0 = 256
    ∧ factorOf 1 12484 = 32 := by decide

/-- R97: the move is rounded toward minus infinity, both ways from the average. -/
theorem test_level_average : levelStep 500 508 = 501 ∧ levelStep 500 507 = 500 ∧ levelStep 500 499 = 499
    ∧ levelStep 1 0 = 0 := by decide

/-- R25, R73: Bmax of the smallest and of the largest profile. -/
theorem test_bucket : bmax ⟨0, 0, 1, 0⟩ = 3072 ∧ bmax ⟨255, 3, 255, 15⟩ = 8 * (255 * 16 * 64) := by decide

/-- R19: a firm hush makes a premises unit ignore its own ASSIGN, and SPEAK_ALL does not lift it. -/
theorem test_firm_hush : puOrder (some 7) (.assign 3 7 100) ⟨none, none, false, true⟩ = ⟨none, none, false, true⟩
    ∧ puOrder (some 7) .speakAll ⟨none, none, true, true⟩ = ⟨none, none, false, true⟩ := by decide

/-- R18: a premises unit with a number answers its own grant, one without answers a discovery window, a hushed one nothing. -/
theorem test_pu_answers : puAnswers ⟨some 3, some 100, false, false⟩ ⟨3, .data, 10, 12⟩
      = some (.burst 3 ⟨3, .data, 10, 12⟩ 420)
    ∧ puAnswers ⟨none, none, false, false⟩ ⟨64, .discovery, 600, 676⟩ = some (.response ⟨64, .discovery, 600, 676⟩)
    ∧ puAnswers ⟨some 3, some 100, true, false⟩ ⟨3, .data, 10, 12⟩ = none := by decide

/-- R3, R14: a ranging burst of twelve grains carries eight bytes of value 90, dark for its two guard grains. -/
theorem test_pu_ranging_burst : (puBurstOf 0 7 (.burst 3 ⟨3, .ranging, 108, 12⟩ 3556)).payload = [90, 90, 90, 90, 90, 90, 90, 90]
    ∧ (puBurstOf 0 7 (.burst 3 ⟨3, .ranging, 108, 12⟩ 3556)).laserOn 63 = false
    ∧ (puBurstOf 0 7 (.burst 3 ⟨3, .ranging, 108, 12⟩ 3556)).laserOn 64 = true
    ∧ (puBurstOf 0 7 (.burst 3 ⟨3, .ranging, 108, 12⟩ 3556)).laserOn 383 = true
    ∧ (puBurstOf 0 7 (.burst 3 ⟨3, .ranging, 108, 12⟩ 3556)).laserOn 384 = false := by decide +kernel

/-- R14: a ranging burst has 48 bytes: ten grains of overhead and two of payload, the header's unit number at byte 28. -/
theorem test_pu_burst_bytes : (puBurstOf 0 7 (.burst 3 ⟨3, .ranging, 108, 12⟩ 3556)).bytes.length = 48
    ∧ (puBurstOf 0 7 (.burst 3 ⟨3, .ranging, 108, 12⟩ 3556)).bytes.take 24
        = [0, 0, 0, 0, 0, 0, 0, 0, 170, 170, 170, 170, 170, 170, 170, 170, 170, 170, 170, 170, 170, 170, 170, 170]
    ∧ ((puBurstOf 0 7 (.burst 3 ⟨3, .ranging, 108, 12⟩ 3556)).bytes.drop 28).take 2 = [3, 3] := by
  unfold PuBurst.bytes
  simp only [beBytes, headerBytes]
  decide +kernel

/-- R20: a premises unit whose frame check failed keeps its number through a restart mark and sends nothing. -/
theorem test_missed_frame : puState 7 (puReceive ⟨0, true, [], [], []⟩ [7] ⟨[⟨7, ⟨some 3, some 100, false, false⟩, []⟩],
        ⟨none, none, false, false⟩, [], 0⟩) = ⟨some 3, some 100, false, false⟩
    ∧ puState 7 (puReceive ⟨0, true, [], [], []⟩ [] ⟨[⟨7, ⟨some 3, some 100, false, false⟩, []⟩],
        ⟨none, none, false, false⟩, [], 0⟩) = ⟨none, none, false, false⟩ := by decide +kernel

/-- R188: a second loss, after the round-marker event at which the offer came due, leaves that offer due and is offered again
after the next event. -/
theorem test_loss_after_due : (Reoffer.due).lose.isDue = true ∧ (Reoffer.due).lose.made.isDue = false
    ∧ (Reoffer.due).lose.made.tick.isDue = true ∧ (Reoffer.due).made.tick.isDue = false := by decide

/-- R169, R173: right after a release nothing is received until 12 recessive bit times have been counted. -/
theorem test_quiet_at_release : (after (.noticeReceived ⟨11, true⟩ []) (State.reset)).sbp.recvErrors = 0
    ∧ (after (.noticeReceived ⟨12, true⟩ []) (State.reset)).sbp.recvErrors = 1
    ∧ (after (.noticeReceived ⟨0, true⟩ []) (after .arbitrationLost (after (.transmitStart 12) (State.reset)))).sbp.recvErrors
        = 1 := by decide +kernel

/-- R173: what the SBP reads back while it sends is no notice: nothing of it is counted or handed on. -/
theorem test_read_back : (after (.noticeReceived ⟨0, true⟩ []) (after (.transmitStart 12) State.reset)).sbp.recvErrors = 0
    ∧ (after (.noticeReceived ⟨0, true⟩ (noticeBytes 1 16 0 (orderBody 7 .take))) (after (.transmitStart 12) State.reset)).sbp
        = (after (.transmitStart 12) State.reset).sbp := by decide +kernel

/-- R30: the round-marker event lowers a cooling of 1, and no other command makes the number allocatable. -/
theorem test_cooling : allocatable (getU 4 (after (.coolingExpiry 4) (setU 4 { UnitRecord.blank with cooling := 1 } served))) = false
    ∧ allocatable (getU 4 (after (.roundMarker []) (setU 4 { UnitRecord.blank with cooling := 1 } served))) = true := by
  decide +kernel

/-- The first round-marker event sends round 0 and lowers no LISTEN count; the second lowers it to 399 (R191). -/
theorem test_first_rounds : (after (.roundMarker []) State.reset).sc.listenCount = 400
    ∧ (after (.roundMarker []) (after (.roundMarker []) State.reset)).sc.listenCount = 399 := by decide +kernel

/-- A frame's length: five bytes, six for each entry, the orders, the check of four (R5, 1.9). -/
theorem test_frame_bytes : (Frame.bytes ⟨1, false, [⟨0, .data, 0, 11⟩], [.assign 0 1 2, .hushAll], [⟨0, [1, 2]⟩]⟩).length
    = 5 + 6 + 13 + 1 + 5 + 4 := by decide +kernel

/-- 9.8.4: a usage notice has 72 bytes. -/
theorem test_usage_bytes : (UsageBody.bytes ⟨63, 1, 65535, true, true, CounterSet.zero⟩).length = 72 := by decide +kernel

/-! ### Witnesses: the machine, rounds, plans and premises units -/

/-- A part in SERVING with an ACTIVE, a LOST, a RANGING and a RETIRING record, the last with its final notice on the line. -/
def mixed : State :=
  let s1 := setU 0 { held .active 100 with report := 20 } (setU 1 { held .lost 101 with poll := 1, lostHold := 100 }
    (setU 2 { held .ranging 102 with returning := true, provEqd := some 20000, claimRefresh := 0 }
      (setU 3 { held .retiring 103 with poll := 0, claimRefresh := 0 } served)))
  let s2 := modA 3 (fun _ => ⟨CounterSet.zero, 1, some ⟨CounterSet.zero, 1, true, false, .onLine, false⟩⟩) s1
  { s2 with
    ec := { s2.ec with rangingQueue := [2] }
    ucb := { s2.ucb with out := 1 }
    sbp := { s2.sbp with slot := some ⟨⟨5, .usage 3 (some ⟨3, 103, 1, true, false, CounterSet.zero⟩)⟩, true⟩, nextRef := 6 } }

theorem witness_StepRunsFrontCommand : ({ served with pending := [.take toUs] } : State).pending = .take toUs :: []
    ∧ served.pending = [] := by decide +kernel

theorem witness_ResetReleaseLeavesResetValues : (⟨true, true, true⟩ : ResetCauses).powerOn = true
    ∧ ((⟨false, true, true⟩ : ResetCauses).powerOn = false ∧ (⟨false, true, true⟩ : ResetCauses).brownOut = true)
    ∧ (⟨false, false, true⟩ : ResetCauses).resetPin = true := by decide

theorem witness_HeldResetSilencesThePart : ∀ pins causes, Instr.take toUs ≠ .resetRelease pins causes := by
  intro _ _ h
  cases h

theorem witness_RoundMarkerSendsTheNextFrame : served.held = false ∧ served.sc.phase = .serving ∧ State.reset.held = false
    ∧ State.reset.sc.phase ≠ .serving := by decide +kernel

theorem witness_PlannedGrantsNeverOverlap : mixed.held = false
    ∧ ((latestPlan (after (.roundMarker []) mixed)).map (fun p => p.grants.map grantFrom)) = some [0, 4076, 4104, 4134] := by
  decide +kernel

theorem mixed_ranging : RangingLaw mixed := by
  refine ⟨by decide +kernel, by decide +kernel, by decide +kernel, by decide +kernel⟩

theorem mixed_closing : ClosingLaw mixed := by
  intro u p h hc
  have key : ∀ u : UnitNo, (getA u mixed).snapshot = none ∨ (getU u mixed).state = .retiring := by decide +kernel
  rcases key u with h0 | h1
  · rw [h0] at h; cases h
  · exact h1

/-- The plan of `mixed` holds a grant of each kind. -/
theorem witness_PlanGrantsByRecordState : mixed.held = false ∧ RangingLaw mixed ∧ ClosingLaw mixed
    ∧ ((latestPlan (after (.roundMarker []) mixed)).map (fun p => p.grants.map (·.kind)))
        = some [.discovery, .ranging, .data, .reportOnly]
    ∧ ((latestPlan (after (.roundMarker []) { mixed with ec := { mixed.ec with sinceDiscovery := 399 } })).map
        (fun p => p.grants.map (·.kind))) = some [.ranging, .data, .reportOnly]
    ∧ State.reset.sc.phase ≠ .serving :=
  ⟨by decide +kernel, mixed_ranging, mixed_closing, by decide +kernel, by decide +kernel⟩

/-- Of `mixed`, unit 0 has a data grant, unit 1 a report-only grant, and unit 4 none. -/
theorem witness_PlanChargesItsGrants : mixed.sc.phase = .serving
    ∧ ((latestPlan (planRound 0 [] mixed)).map (fun p => p.grants.map (fun g => (g.unit, g.kind))))
        = some [(64, .discovery), (2, .ranging), (0, .data), (1, .reportOnly)] := by decide +kernel

theorem witness_OfferedOrderJoinsItsGroup : QueueLaw (queued 63 served) ∧ (queued 63 served).tli.queue.length < 64
    ∧ QueueLaw (queued 64 served) ∧ (queued 64 served).tli.queue.length = 64
    ∧ (withdrawOrders .ec (fun _ => true) (queued 3 served)).2 = 0
    ∧ (withdrawOrders .lm (fun _ => true) (queued 3 served)).2 = 3 := by
  refine ⟨⟨?_, ?_⟩, ?_, ⟨?_, ?_⟩, ?_, ?_, ?_⟩ <;> decide +kernel

/-- A part whose last frame carried the restart mark, with a DROP_UNIT queued. -/
def marked : State :=
  { served with tli := { served.tli with lastFrame := some ⟨8, true, [], [], []⟩, queue := [⟨.dropUnit 4, .ut, .plain⟩] } }

/-- A step and a closing offer are carried in one frame, with an EQD of unit 0 behind them and one of unit 1 left in the queue. -/
def carrying : State :=
  let s1 := modIso (fun m => { m with step := .toCarry, stepKind := .speak, stepClears := [1], closingOut := 1 }) mixed
  { s1 with tli := { s1.tli with
      queue := [⟨.speakUnit 1, .lm, .stepEnd⟩, ⟨.speakAll, .lm, .closingEnd .all⟩] ++ List.replicate 5 ⟨.hushAll, .lm, .plain⟩
        ++ [⟨.eqd 0 5, .ec, .plain⟩, ⟨.eqd 1 5, .ec, .plain⟩] } }

theorem witness_carriage : carrying.lm.iso.step = .toCarry
    ∧ (∃ q ∈ carrying.tli.queue.take 8, q.mark = .stepEnd) ∧ (1 : UnitNo) ∈ carrying.lm.iso.stepClears
    ∧ (∃ q ∈ carrying.tli.queue.take 8, isAssignFor 0 q.order || isEqdFor 0 q.order)
    ∧ (∃ q ∈ (assembleFrame [] carrying).tli.queue, isEqdFor 1 q.order = true)
    ∧ (∀ q ∈ (assembleFrame [] carrying).tli.queue, isEqdFor 0 q.order = false)
    ∧ (1 ≤ carrying.lm.iso.closingOut ∧ carrying.lm.iso.closingOut ≤ 1 ∧ carrying.lm.iso.closing = [])
    ∧ (assembleFrame [] carrying).lm.iso.countFrom = .fromRound 1
    ∧ (modIso (fun m => { m with step := .emptied }) mixed).lm.iso.step = .emptied
    ∧ (mixed.lm.iso.step ≠ .emptied ∧ mixed.lm.iso.step ≠ .toCarry ∧ mixed.lm.iso.closingOut = 0) := by
  refine ⟨by decide +kernel, ⟨⟨.speakUnit 1, .lm, .stepEnd⟩, by decide +kernel⟩, by decide +kernel,
    ⟨⟨.eqd 0 5, .ec, .plain⟩, by decide +kernel⟩, ⟨⟨.eqd 1 5, .ec, .plain⟩, by decide +kernel⟩, by decide +kernel⟩

theorem witness_FrameTakesTheQueueHead : State.reset.sc.phase ≠ .serving ∧ served.tli.lastFrame = none
    ∧ marked.sc.phase = .serving ∧ marked.tli.lastFrame = some ⟨8, true, [], [], []⟩
    ∧ (∃ q ∈ marked.tli.queue, q.order = .dropUnit 4) :=
  ⟨by decide +kernel, by decide +kernel, by decide +kernel, by decide +kernel, ⟨⟨.dropUnit 4, .ut, .plain⟩, by decide +kernel⟩⟩

/-- A packet of an ACTIVE unit fits to the byte, one of no record is discarded, and the next one does not fit. -/
theorem witness_TrafficPortPlacesPackets : served.held = false ∧ served.tli.holdOff = false
    ∧ ({ served with tli := { served.tli with holdOff := true } } : State).tli.holdOff = true
    ∧ (framePackets 5 [⟨0, [1, 2]⟩, ⟨64, [1]⟩, ⟨0, [9]⟩] mixed).1 = [⟨0, [1, 2]⟩]
    ∧ (framePackets 5 [⟨0, [1, 2]⟩, ⟨64, [1]⟩, ⟨0, [9]⟩] mixed).2.tli.undeliverable = 1
    ∧ (framePackets 5 [⟨0, [1, 2]⟩, ⟨64, [1]⟩, ⟨0, [9]⟩] mixed).2.tli.stream = [⟨0, [9]⟩]
    ∧ (framePackets 5 [⟨0, [1, 2]⟩] mixed).2.tli.undeliverable = mixed.tli.undeliverable
    ∧ (getA 0 mixed).live.down.get mixed.ucb.band ≤ 281474976710655 := by decide +kernel

theorem witness_PowerDownEndsAFirmHush : (8 : Serial) ≠ 7 := by decide

theorem witness_FrameActsOnPremisesUnits : (7 : Serial) ∈ [7] ∧ (8 : Serial) ∉ [7]
    ∧ (⟨0, false, [], [.hushAll], []⟩ : Frame).mark = false ∧ (⟨0, true, [], [.barSerial 8], []⟩ : Frame).mark = true
    ∧ ((⟨none, none, true, false⟩ : PuState).softHush = true ∧ (⟨none, none, false, true⟩ : PuState).firmHush = true)
    ∧ ((⟨none, none, false, false⟩ : PuState).softHush = false ∧ (⟨none, none, false, false⟩ : PuState).firmHush = false
        ∧ (⟨none, none, false, false⟩ : PuState).unit = none)
    ∧ ((⟨some 63, none, false, false⟩ : PuState).unit = some 63 ∧ (⟨some 63, none, false, false⟩ : PuState).eqd = none)
    ∧ ((⟨some 63, some 0, false, false⟩ : PuState).unit = some 63 ∧ (⟨some 63, some 0, false, false⟩ : PuState).eqd = some 0
        ∧ (⟨some 63, some 0, false, false⟩ : PuState).unit ≠ some 62)
    ∧ ((⟨63, .data, 10, 12⟩ : GrantEntry).kind ≠ .discovery ∧ (⟨63, .reportOnly, 10, 10⟩ : GrantEntry).kind = .reportOnly
        ∧ (⟨63, .ranging, 8, 12⟩ : GrantEntry).kind = .ranging) := by
  decide

/-! ### Witnesses: records and re-offers -/

/-- A CLAIMING record whose settle has run out, measured at the RTD of the reach class's far end. -/
def settled : State :=
  modE 0 (fun e => { e with measurement := some (teq .n) })
    (setU 0 { held .claiming 100 with settleStarted := true, everActive := false, eqd := none } served)

theorem witness_ClaimSettleExpiryStartsRanging : settled.held = false ∧ (getU 0 settled).state = .claiming
    ∧ (getU 0 settled).settleStarted = true ∧ (getU 0 settled).claimSettle = 0 ∧ (getU 0 settled).serial = some 100
    ∧ (getE 0 settled).measurement = some (teq .n) ∧ (queued 63 settled).tli.queue.length < 64
    ∧ 64 ≤ (queued 64 settled).tli.queue.length := by decide +kernel

/-- An ASSIGN, a DROP_UNIT and a BAR_SERIAL are due to be offered again. -/
def owing : State :=
  let s1 := setU 3 { UnitRecord.blank with dropPending := true, dropWait := .due } (modE 2 (fun e => { e with assignWait := .due }) mixed)
  { s1 with lm := { s1.lm with barWait := [⟨7, true⟩] } }

theorem witness_RefusedOrdersAreOfferedAgain : owing.held = false ∧ (getE 2 owing).assignWait = .due
    ∧ (getU 2 owing).state = .ranging ∧ (getU 2 owing).serial = some 102 ∧ (getU 2 owing).provEqd = some 20000
    ∧ (getU 3 owing).dropWait = .due ∧ ⟨7, true⟩ ∈ owing.lm.barWait ∧ (queued 63 owing).tli.queue.length < 64
    ∧ 64 ≤ (queued 64 owing).tli.queue.length := by decide +kernel

theorem witness_LostHoldExpiryRetiresTheRecord : (setU 1 (held .lost 101) served).held = false
    ∧ (getU 1 (setU 1 (held .lost 101) served)).state = .lost ∧ (getU 1 (setU 1 (held .lost 101) served)).lostHold = 0 := by
  decide +kernel

/-- The records and lists that the counts run over, each at the edge. -/
def ageing : State :=
  let s1 := setU 4 { UnitRecord.blank with cooling := 1 } (setU 5 { held .claiming 105 with settleStarted := true, claimSettle := 80 }
    (setU 6 { held .active 106 with tailSpan := 64, tailEvents := 3 } (setU 7 { held .active 107 with tailSpan := 63 } mixed)))
  { s1 with
    ec := { s1.ec with strangers := [⟨7, 240000⟩, ⟨8, 239999⟩] }
    dv := { s1.dv with claims := [⟨7, 1, 0, .claiming, 400⟩, ⟨7, 2, 0, .held, 16000⟩, ⟨8, 1, 0, .claiming, 399⟩] } }

theorem witness_CountsRunAndExpire : ageing.held = false ∧ (getU 1 ageing).state = .lost ∧ serves (getU 0 ageing) = true
    ∧ ((getU 5 ageing).state = .claiming ∧ (getU 5 ageing).settleStarted = true)
    ∧ ((getU 4 ageing).state = .free ∧ (getU 4 ageing).dropPending = false ∧ (getU 4 ageing).cooling ≤ 1)
    ∧ (64 ≤ (getU 6 ageing).tailSpan ∧ (getU 6 ageing).tailEvents < 4) ∧ (getU 7 ageing).tailSpan < 64
    ∧ (after (.strangerAgeOut 7) ageing).ec.strangers = [⟨8, 239999⟩]
    ∧ (after (.claimEntryExpiry 7 2) ageing).dv.claims = [⟨7, 1, 0, .claiming, 400⟩, ⟨8, 1, 0, .claiming, 399⟩] := by
  decide +kernel

/-! ### Witnesses: orders -/

theorem served_taken : Taken toUs served ∧ Taken toAll served := by
  unfold Taken Heeded
  decide +kernel

theorem mixed_taken : Taken toUs mixed := by
  unfold Taken Heeded
  decide +kernel

/-- `mixed` with a CLAIMING record of unit 5 and a RANGING one of unit 6 that has never served, both permitted. -/
def enrolling : State :=
  let s1 := setU 5 { held .claiming 105 with everActive := false } (setU 6 { held .ranging 106 with everActive := false } mixed)
  { s1 with ec := { s1.ec with rangingQueue := [2, 6], permits := [⟨105, ⟨10, 0, 16, 1⟩⟩, ⟨106, ⟨10, 0, 16, 1⟩⟩] } }

theorem enrolling_taken : Taken toUs enrolling := by
  unfold Taken Heeded
  decide +kernel

theorem witness_RevokeActsByRecordState : Taken toUs enrolling ∧ findUnit 99 enrolling = none
    ∧ (findUnit 105 enrolling = some 5 ∧ (getU 5 enrolling).state = .claiming)
    ∧ (findUnit 103 enrolling = some 3 ∧ (getU 3 enrolling).state = .retiring)
    ∧ (findUnit 100 enrolling = some 0 ∧ (getU 0 enrolling).state = .active)
    ∧ (findUnit 101 enrolling = some 1 ∧ (getU 1 enrolling).state = .lost)
    ∧ (findUnit 102 enrolling = some 2 ∧ (getU 2 enrolling).state = .ranging ∧ (getU 2 enrolling).returning = true)
    ∧ (findUnit 106 enrolling = some 6 ∧ (getU 6 enrolling).state = .ranging ∧ (getU 6 enrolling).returning = false)
    ∧ OutboxRoom 2 (boxed 30 enrolling) :=
  ⟨enrolling_taken, by unfold OutboxRoom; decide +kernel⟩

theorem witness_ProfileStagesTheCodes : Taken toUs enrolling
    ∧ (¬((255 : Byte).toNat ≤ 3) ∧ ¬(1 ≤ (0 : Byte).toNat) ∧ ¬((16 : Byte).toNat ≤ 15))
    ∧ ((3 : Byte).toNat ≤ 3 ∧ 1 ≤ (1 : Byte).toNat ∧ (15 : Byte).toNat ≤ 15)
    ∧ (findUnit 105 enrolling = some 5 ∧ (getU 5 enrolling).state ≠ .retiring)
    ∧ (findUnit 103 enrolling = some 3 ∧ (getU 3 enrolling).state = .retiring)
    ∧ (findUnit 90 { enrolling with ec := { enrolling.ec with permits := [⟨90, ⟨1, 0, 1, 0⟩⟩] } } = none)
    ∧ (findUnit 99 enrolling = none ∧ ∀ q ∈ enrolling.ec.permits, q.serial ≠ 99) :=
  ⟨enrolling_taken, by decide +kernel⟩

/-- A permit list of `n` entries. -/
def permitted (n : Nat) (s : State) : State :=
  { s with ec := { s.ec with permits := (List.range n).map (fun i => ⟨BitVec.ofNat 64 (200 + i), ⟨1, 0, 1, 0⟩⟩) } }

/-- The barred list holds serial 7. -/
def barring (s : State) : State := { s with dv := { s.dv with barred := [⟨7, 0, .rogue⟩] } }

theorem witness_PermitTakesItsTestsInOrder : Taken toUs mixed
    ∧ (∃ b ∈ (barring mixed).dv.barred, b.serial = 7) ∧ (∀ b ∈ mixed.dv.barred, b.serial ≠ 7)
    ∧ (∃ u, (getU u mixed).state ≠ .free ∧ (getU u mixed).serial = some 103)
    ∧ (∀ u, (getU u mixed).state ≠ .free → (getU u mixed).serial ≠ some 7)
    ∧ (∃ q ∈ (permitted 16 mixed).ec.permits, q.serial = 215)
    ∧ ((∀ q ∈ (permitted 16 mixed).ec.permits, q.serial ≠ 7) ∧ 16 ≤ (permitted 16 mixed).ec.permits.length)
    ∧ ((∀ q ∈ (permitted 15 mixed).ec.permits, q.serial ≠ 7) ∧ (permitted 15 mixed).ec.permits.length < 16) :=
  ⟨mixed_taken, by decide +kernel⟩

theorem witness_WithdrawEndsAPermit : Taken toUs enrolling
    ∧ ((∃ q ∈ enrolling.ec.permits, q.serial = 105) ∧ findUnit 105 enrolling = some 5
        ∧ neverServed (getU 5 enrolling) = true ∧ (getU 5 enrolling).state = .claiming)
    ∧ ((∃ q ∈ enrolling.ec.permits, q.serial = 106) ∧ findUnit 106 enrolling = some 6
        ∧ neverServed (getU 6 enrolling) = true)
    ∧ ((∃ q ∈ (permitted 1 mixed).ec.permits, q.serial = 200) ∧ findUnit 200 (permitted 1 mixed) = none)
    ∧ ((∀ q ∈ enrolling.ec.permits, q.serial ≠ 100) ∧ ∃ u, (getU u enrolling).state ≠ .free ∧ (getU u enrolling).serial = some 100)
    ∧ ((∀ q ∈ enrolling.ec.permits, q.serial ≠ 99) ∧ ∀ u, (getU u enrolling).state ≠ .free → (getU u enrolling).serial ≠ some 99)
    ∧ OutboxRoom 2 (boxed 30 enrolling) :=
  ⟨enrolling_taken, by unfold OutboxRoom; decide +kernel⟩

/-! ### Witnesses: discovery and ranging -/

/-- `s` after a plan with a discovery window, seven of whose responses have been accepted. -/
def seeking (s : State) : State :=
  { s with gs := { s.gs with plans := [⟨9, [grant 64 .discovery (span .n) (span .n + 76) 0 0], 7⟩] } }

/-- The plan of `seeking`. -/
def seekingPlan : Plan := ⟨9, [grant 64 .discovery (span .n) (span .n + 76) 0 0], 7⟩

/-- A response with RTD Teq, the greatest, and spread 63, from serial `x` at the level `l`. -/
def response (x l : Nat) : Burst := burst (192 + 32 * (span .n + 63)) l (header 64 4 0 8 63) (beBytes 8 x)

/-- Unit 0 is the lowest allocatable record, serial 7 is permitted, and a peer claims it at a lower level. -/
def finding : State :=
  let s1 := seeking served
  { s1 with
    ec := { s1.ec with permits := [⟨7, ⟨10, 0, 16, 1⟩⟩] }
    dv := { s1.dv with claims := [⟨7, 1, 499, .claiming, 0⟩] } }

theorem witness_DiscoveryEnrolsAPermittedSerial : finding.held = false ∧ finding.sc.phase = .serving
    ∧ findPlan 9 finding = some seekingPlan ∧ hasDiscovery seekingPlan = true ∧ seekingPlan.accepted < 8
    ∧ acceptsResponse finding.sc.reach (response 7 500) = true
    ∧ ((teq .n : Nat) : Int) = ((response 7 500).pos : Int) - 192
        - 32 * ((span finding.sc.reach : Int) + (response 7 500).header.spread.toNat) + teq finding.sc.reach
    ∧ rtdMin finding.sc.reach ≤ teq .n ∧ teq .n ≤ teq finding.sc.reach
    ∧ isBarred (payloadSerial (response 7 500)) finding = false ∧ findUnit (payloadSerial (response 7 500)) finding = none
    ∧ findPermit (payloadSerial (response 7 500)) finding = some ⟨7, ⟨10, 0, 16, 1⟩⟩
    ∧ (∀ e ∈ finding.dv.claims, e.serial = payloadSerial (response 7 500) → e.kind = .claiming
        ∧ ¬(meanLevel (response 7 500).preamble < e.level
          ∨ (e.level = meanLevel (response 7 500).preamble ∧ e.peer < finding.sc.station)))
    ∧ allocatable (getU 0 finding) = true ∧ (∀ v, v < 0 → allocatable (getU v finding) = false)
    ∧ OutboxRoom 1 (boxed 31 finding) :=
  by unfold OutboxRoom; decide +kernel

/-- A barred serial, a serving record, a record in another state, a stranger listed and a stranger new. -/
def sorting : State :=
  let s1 := barring (seeking enrolling)
  { s1 with ec := { s1.ec with strangers := [⟨8, 5⟩] } }

/-- A response at bit 0 of the window: RTD is RTDmin with spread 0, and 32 less with spread 1. -/
def nearest (x spread : Nat) : Burst := burst 192 500 (header 64 4 0 8 spread) (beBytes 8 x)

/-- Serials 7, 8 and 9 are permitted; a peer holds 7 and claims 8 as this level from a lower station; no record is free. -/
def crowded : State :=
  let s1 := mapU (fun _ => held .active 100) (seeking served)
  { s1 with
    sc := { s1.sc with station := 2 }
    ec := { s1.ec with permits := [⟨7, ⟨10, 0, 16, 1⟩⟩, ⟨8, ⟨10, 0, 16, 1⟩⟩, ⟨9, ⟨10, 0, 16, 1⟩⟩] }
    dv := { s1.dv with claims := [⟨7, 1, 0, .held, 0⟩, ⟨8, 1, 500, .claiming, 0⟩] } }

theorem witness_refusals : crowded.held = false ∧ crowded.sc.phase = .serving ∧ findPlan 9 crowded = some seekingPlan
    ∧ (acceptsResponse crowded.sc.reach (nearest 9 1) = true ∧ burstOrigin (nearest 9 1) - 32 * (4000 + 1) + 160000 = 31968)
    ∧ (acceptsResponse crowded.sc.reach (nearest 9 0) = true ∧ burstOrigin (nearest 9 0) - 32 * 4000 + 160000 = 32000)
    ∧ (findUnit (payloadSerial (nearest 9 1)) crowded = none ∧ findPermit (payloadSerial (nearest 9 1)) crowded ≠ none)
    ∧ (∃ e ∈ crowded.dv.claims, e.serial = payloadSerial (nearest 7 0) ∧ e.kind = .held)
    ∧ (∃ e ∈ crowded.dv.claims, e.serial = payloadSerial (nearest 8 0) ∧ e.kind = .claiming
        ∧ e.level = meanLevel (nearest 8 0).preamble ∧ e.peer < crowded.sc.station)
    ∧ (∀ e ∈ crowded.dv.claims, e.serial ≠ payloadSerial (nearest 9 0)) ∧ (∀ u, allocatable (getU u crowded) = false)
    ∧ (findUnit (payloadSerial (nearest 100 1)) crowded = some 0 ∧ serves (getU 0 crowded) = true) := by
  decide +kernel

theorem witness_DiscoverySortsAHeardSerial : sorting.held = false ∧ sorting.sc.phase = .serving
    ∧ findPlan 9 sorting = some seekingPlan ∧ hasDiscovery seekingPlan = true ∧ seekingPlan.accepted < 8
    ∧ acceptsResponse sorting.sc.reach (response 7 500) = true
    ∧ isBarred (payloadSerial (response 7 500)) sorting = true
    ∧ (isBarred (payloadSerial (response 101 500)) sorting = false
        ∧ findUnit (payloadSerial (response 101 500)) sorting = some 1 ∧ serves (getU 1 sorting) = true
        ∧ rtdMin sorting.sc.reach ≤ teq .n ∧ sorting.tli.queue.length < 64)
    ∧ (findUnit (payloadSerial (response 103 500)) sorting = some 3 ∧ serves (getU 3 sorting) = false)
    ∧ (findUnit (payloadSerial (response 8 500)) sorting = none ∧ findPermit (payloadSerial (response 8 500)) sorting = none
        ∧ ∃ e ∈ sorting.ec.strangers, e.serial = payloadSerial (response 8 500))
    ∧ (findUnit (payloadSerial (response 9 500)) sorting = none ∧ findPermit (payloadSerial (response 9 500)) sorting = none
        ∧ ∀ e ∈ sorting.ec.strangers, e.serial ≠ payloadSerial (response 9 500)) := by decide +kernel

/-- `mixed` awaiting the findings of unit 2's ranging window, whose grant starts at grain 8. -/
def ranging : State := planned [grant 2 .ranging 8 12 0 0] (modE 2 (fun e => { e with attemptPending := true }) mixed)

/-- A ranging burst of unit 2, `d` bits late. -/
def rangingBurst (d : Nat) : Burst := burst (192 + 32 * 8 + d) 500 (header 2 3 0 8 0) (List.replicate 8 90)

theorem rangingBurst_accepted : RangingAccepted 2 8 (rangingBurst 256) ∧ RangingAccepted 2 8 (rangingBurst 0) := by
  unfold RangingAccepted DelimiterIn
  decide +kernel

theorem witness_RangingSuccessMakesActive : ranging.held = false
    ∧ findPlan 9 ranging = some ⟨9, [grant 2 .ranging 8 12 0 0], 0⟩
    ∧ (⟨9, [grant 2 .ranging 8 12 0 0], 0⟩ : Plan).grants.find? (fun g => g.kind == .ranging && g.unit == (2 : UnitNo).val)
        = some (grant 2 .ranging 8 12 0 0)
    ∧ (getE 2 ranging).attemptPending = true ∧ (getU 2 ranging).serial = some 102 ∧ (getU 2 ranging).provEqd = some 20000
    ∧ ((19744 : Nat) : Int) = ((20000 : Nat) : Int) - burstDelta 8 (rangingBurst 256)
    ∧ ((20000 : Nat) : Int) = ((20000 : Nat) : Int) - burstDelta 8 (rangingBurst 0)
    ∧ 19744 ≤ teq ranging.sc.reach ∧ (queued 63 ranging).tli.queue.length < 64 ∧ 64 ≤ (queued 64 ranging).tli.queue.length
    ∧ OutboxRoom 2 (boxed 30 ranging)
    ∧ (getU 2 (modU 2 (fun r => { r with everActive := false }) ranging)).everActive = false :=
  by unfold OutboxRoom; decide +kernel

theorem rangingBurst_refused : ¬RangingAccepted 2 8 (rangingBurst 257) := by
  unfold RangingAccepted DelimiterIn
  decide +kernel

theorem witness_RangingFailureIsCounted : (getE 2 (planned [grant 2 .ranging 8 12 0 0] mixed)).attemptPending = false
    ∧ (getE 2 ranging).attemptPending = true ∧ (getU 2 ranging).state = .ranging
    ∧ (∀ b, some (rangingBurst 257) = some b → ¬RangingAccepted 2 8 b)
    ∧ (getU 2 (modU 2 (fun r => { r with attempts := 2 }) ranging)).attempts < 3
    ∧ 3 ≤ (getU 2 (modU 2 (fun r => { r with attempts := 3 }) ranging)).attempts
    ∧ (getU 2 ranging).returning = true ∧ (getU 2 (modU 2 (fun r => { r with returning := false }) ranging)).returning = false :=
  ⟨by decide +kernel, by decide +kernel, by decide +kernel, (fun b h => by cases h; exact rangingBurst_refused),
   by decide +kernel⟩

/-- `ranging` with provisional EqD `q`. -/
def rangingAt (q : Nat) : State := modU 2 (fun r => { r with provEqd := some q }) ranging

/-- At the fourth failure the provisional EqD is the record's EqD, or another, with a place free for its EQD or none. -/
theorem witness_fourth_failure : (getU 2 ranging).eqd = some 20000 ∧ (getU 2 ranging).provEqd = some 20000
    ∧ ((getU 2 (rangingAt 19999)).eqd = some 20000 ∧ (getU 2 (rangingAt 19999)).provEqd ≠ some 20000)
    ∧ (queued 63 (rangingAt 19999)).tli.queue.length < 64 ∧ 64 ≤ (queued 64 (rangingAt 19999)).tli.queue.length
    ∧ (getU 2 (rangingAt 19999)).serial = some 102 ∧ OutboxRoom 2 (boxed 30 (rangingAt 19999)) := by
  unfold OutboxRoom
  decide +kernel

/-- A final EqD one bit below 0, and one bit above Teq. -/
theorem witness_final_out_of_reach : RangingAccepted 2 8 (rangingBurst 256) ∧ (getE 2 (rangingAt 255)).attemptPending = true
    ∧ (getU 2 (rangingAt 255)).provEqd = some 255 ∧ (255 : Int) - burstDelta 8 (rangingBurst 256) = -1
    ∧ RangingAccepted 2 8 (burst (192 + 32 * 8 - 1) 500 (header 2 3 0 8 0) (List.replicate 8 90))
    ∧ (160000 : Int) - burstDelta 8 (burst (192 + 32 * 8 - 1) 500 (header 2 3 0 8 0) (List.replicate 8 90)) = 160001
    ∧ teq (rangingAt 160000).sc.reach = 160000 ∧ (getU 2 (rangingAt 160000)).serial = some 102
    ∧ OutboxRoom 3 (boxed 29 (rangingAt 255)) := by
  refine ⟨rangingBurst_accepted.1, ?_⟩
  unfold RangingAccepted DelimiterIn OutboxRoom
  decide +kernel

/-- A lost claiming claim of unit 5's own notice and a lost released claim of a serial that no record holds, both due. -/
def reclaiming : State :=
  let s1 := modE 5 (fun e => { e with claimRef := some 2 }) enrolling
  { s1 with ec := { s1.ec with lostClaims := [⟨105, 500, .claiming, 5, 2, true⟩, ⟨99, 400, .released, 9, 3, true⟩,
                                              ⟨100, 400, .released, 9, 4, true⟩] } }

theorem witness_ClaimNoticesAreQueuedAgain : (modU 0 (fun r => { r with claimRefresh := 0 }) mixed).held = false
    ∧ serves (getU 0 (modU 0 (fun r => { r with claimRefresh := 0 }) mixed)) = true
    ∧ (getU 0 (modU 0 (fun r => { r with claimRefresh := 0 }) mixed)).claimRefresh = 0
    ∧ (getU 0 mixed).serial = some 100
    ∧ reclaiming.ec.lostClaims.find? (fun c => c.serial == 99 && c.due) = some ⟨99, 400, .released, 9, 3, true⟩
    ∧ findUnit 99 reclaiming = none
    ∧ reclaiming.ec.lostClaims.find? (fun c => c.serial == 100 && c.due) = some ⟨100, 400, .released, 9, 4, true⟩
    ∧ findUnit 100 reclaiming ≠ none
    ∧ reclaiming.ec.lostClaims.find? (fun c => c.serial == 105 && c.due) = some ⟨105, 500, .claiming, 5, 2, true⟩
    ∧ (getU 5 reclaiming).state = .claiming ∧ (getU 5 reclaiming).settleStarted = false
    ∧ (getE 5 reclaiming).claimRef = some 2 ∧ (getU 5 reclaiming).serial = some 105
    ∧ (getU 5 (modU 5 (fun r => { r with settleStarted := true }) reclaiming)).settleStarted = true
    ∧ OutboxRoom 1 (boxed 31 reclaiming) :=
  by unfold OutboxRoom; decide +kernel

/-! ### Witnesses: bursts -/

/-- `mixed` awaiting the findings of a data grant of 3 + 2 grains for unit 0 and of a report-only grant for unit 1. -/
def awaiting : State := planned [grant 0 .data 100 15 3 2, grant 1 .reportOnly 115 10 0 0] mixed

theorem awaits_data : AwaitsFindings 9 0 (grant 0 .data 100 15 3 2) awaiting :=
  ⟨⟨9, [grant 0 .data 100 15 3 2, grant 1 .reportOnly 115 10 0 0], 0⟩, by decide +kernel⟩

theorem awaits_report : AwaitsFindings 9 1 (grant 1 .reportOnly 115 10 0 0) awaiting :=
  ⟨⟨9, [grant 0 .data 100 15 3 2, grant 1 .reportOnly 115 10 0 0], 0⟩, by decide +kernel⟩

/-- A burst of unit 0 on its data grant, `d` bits late, with `n` data bytes. -/
def dataBurst (d n : Nat) : Burst := burst (192 + 32 * 100 + d) 500 (header 0 1 65535 n 0) (List.replicate 20 7)

/-- A burst of unit 1 on its report-only grant. -/
def reportBurst : Burst := burst (192 + 32 * 115) 500 (header 1 2 7 0 0) []

theorem witness_ValidBurstServesTheRecord : awaiting.held = false ∧ serves (getU 0 awaiting) = true
    ∧ ValidOn (grant 0 .data 100 15 3 2) (dataBurst 64 20) ∧ 0 < (dataBurst 64 20).header.dlen.toNat
    ∧ serves (getU 1 awaiting) = true ∧ (getU 1 awaiting).state = .lost
    ∧ ValidOn (grant 1 .reportOnly 115 10 0 0) reportBurst ∧ reportBurst.header.dlen.toNat = 0 := by
  unfold ValidOn DelimiterIn
  decide +kernel

/-- `awaiting` with unit 0's record in state `st` and EqD `q`. -/
def awaitingIn (st : RecState) (q : Nat) : State := modU 0 (fun r => { r with state := st, eqd := some q }) awaiting

theorem witness_drift : ValidOn (grant 0 .data 100 15 3 2) (dataBurst 9 0) ∧ ValidOn (grant 0 .data 100 15 3 2) (dataBurst 8 0)
    ∧ (burstDelta 100 (dataBurst 9 0) = 9 ∧ burstDelta 100 (dataBurst 8 0) = 8 ∧ burstDelta 100 (dataBurst 64 0) = 64)
    ∧ (getU 0 (awaitingIn .active 8)).eqd = some 8 ∧ (getU 0 (awaitingIn .active 9)).eqd = some 9
    ∧ (getU 0 (awaitingIn .lost 160000)).corrHold = 0
    ∧ (∀ y ∈ (awaitingIn .active 8).tli.queue, isEqdFor 0 y.order = false)
    ∧ (getU 0 (modU 0 (fun r => { r with corrHold := 1 }) awaiting)).corrHold ≠ 0
    ∧ (queued 63 awaiting).tli.queue.length < 64 ∧ 64 ≤ (queued 64 awaiting).tli.queue.length
    ∧ (getU 0 (awaitingIn .ranging 8)).state = .ranging ∧ (getU 0 (awaitingIn .retiring 8)).state = .retiring
    ∧ (getU 0 (awaitingIn .free 8)).state = .free ∧ (getU 0 (awaitingIn .claiming 8)).state = .claiming := by
  unfold ValidOn DelimiterIn
  decide +kernel

/-- Bursts of unit 0 in their place of the wrong kind, with a byte too many, and with a payload of another check. -/
theorem witness_errored : ErroredOn (grant 0 .data 100 15 3 2) (burst (192 + 32 * 100) 500 (header 0 2 0 0 0) (List.replicate 20 7))
    ∧ ErroredOn (grant 0 .data 100 15 3 2) (dataBurst 0 21)
    ∧ ErroredOn (grant 0 .data 100 15 3 2) { dataBurst 64 20 with check := 0 } := by
  unfold ErroredOn DelimiterIn
  decide +kernel

/-- A burst of unit 1, and one whose unit field names no record, on unit 0's grant; unit 1 before its third and its fourth tail
event. -/
theorem witness_wrong_unit : WrongUnitOn (grant 0 .data 100 15 3 2) (burst (192 + 32 * 100) 500 (header 1 1 0 0 0) [])
    ∧ WrongUnitOn (grant 0 .data 100 15 3 2) (burst (192 + 32 * 100) 500 (header 64 1 0 0 0) [])
    ∧ (burst (192 + 32 * 100) 500 (header 1 1 0 0 0) []).header.unit.toNat = (1 : UnitNo).val
    ∧ serves (getU 1 awaiting) = true ∧ (getU 1 awaiting).tailSpan < 64 ∧ (getU 1 awaiting).serial = some 101
    ∧ (getU 1 (modU 1 (fun r => { r with tailEvents := 2, tailSpan := 63 }) awaiting)).tailEvents < 3
    ∧ (getU 1 (modU 1 (fun r => { r with tailEvents := 3, tailSpan := 63 }) awaiting)).tailEvents = 3
    ∧ serves (getU 1 (modU 1 (fun r => { r with state := .retiring }) awaiting)) = false := by
  unfold WrongUnitOn DelimiterIn
  decide +kernel

/-- A burst in its place whose header check fails. -/
def spoilt : Burst := { dataBurst 64 20 with header := { header 0 1 0 20 0 with check := 0xFF } }

/-- Unit 0 one silent grant from LOST. -/
def fading : State := modU 0 (fun r => { r with silent := 15 }) awaiting

theorem witness_FailedGrantCountsSilence : fading.held = false
    ∧ AwaitsFindings 9 0 (grant 0 .data 100 15 3 2) fading ∧ serves (getU 0 fading) = true
    ∧ (∀ b, (none : Option Burst) = some b → ¬DelimiterIn 100 15 b)
    ∧ (DelimiterIn 100 15 spoilt ∧ headerOk spoilt.header = false ∧ (burstDelta 100 spoilt).natAbs ≤ 64)
    ∧ ¬DelimiterIn 100 15 (burst (32 * 115) 0 (header 0 1 0 0 0) [])
    ∧ ({ fading with lm := { fading.lm with lastDark := true } } : State).lm.lastDark = true ∧ fading.lm.lastDark = false
    ∧ (getU 0 fading).state = .active ∧ 15 ≤ (getU 0 fading).silent
    ∧ (getU 0 (modU 0 (fun r => { r with silent := 14 }) fading)).silent < 15 ∧ (getU 1 fading).state = .lost := by
  refine ⟨by decide +kernel, ⟨⟨9, [grant 0 .data 100 15 3 2, grant 1 .reportOnly 115 10 0 0], 0⟩, by decide +kernel⟩,
    by decide +kernel, (fun _ h => by cases h), ?_⟩
  unfold DelimiterIn
  decide +kernel

theorem witness_MisalignedBurstRangesAgain : awaiting.held = false ∧ serves (getU 0 awaiting) = true
    ∧ DelimiterIn 100 15 (dataBurst 65 20) ∧ (dataBurst 65 20).header.unit.toNat = (0 : UnitNo).val
    ∧ 64 < (burstDelta 100 (dataBurst 65 20)).natAbs
    ∧ onTree (getU 0 (awaitingIn .ranging 8)) = true ∧ (getU 0 (awaitingIn .retiring 8)).state = .retiring
    ∧ (getU 0 (awaitingIn .free 8)).state = .free
    ∧ (getU 0 awaiting).streak = 0 ∧ 1 ≤ (getU 0 (modU 0 (fun r => { r with streak := 1 }) awaiting)).streak := by
  unfold DelimiterIn
  decide +kernel

/-! ### Witnesses: the light monitor -/

theorem witness_DarkSampleDrivesTheSearch : mixed.held = false ∧ mixed.lm.iso.phase = .watch ∧ mixed.sc.phase = .serving
    ∧ mixed.lm.iso.countFrom = .any ∧ ¬LitOver [200] mixed ∧ LitOver [201] mixed
    ∧ mixed.lm.iso.litRun + 1 < (inForce mixed).litCount
    ∧ (inForce mixed).litCount ≤ (modIso (fun m => { m with litRun := 2 }) mixed).lm.iso.litRun + 1
    ∧ (queued 63 mixed).tli.queue.length < 64 ∧ 64 ≤ (queued 64 mixed).tli.queue.length
    ∧ State.reset.lm.iso.phase = .watch ∧ State.reset.sc.phase ≠ .serving
    ∧ (modIso (fun m => { m with phase := .holdoff }) mixed).lm.iso.phase = .holdoff := by
  unfold LitOver
  decide +kernel

/-- Counting from is held, or round 5, which rounds 5 and 32,772 reach and rounds 4 and 32,773 do not. -/
theorem witness_counting_from : (modIso (fun m => { m with countFrom := .held }) mixed).lm.iso.countFrom ≠ .any
    ∧ (modIso (fun m => { m with countFrom := .fromRound 5 }) mixed).lm.iso.countFrom = .fromRound 5
    ∧ ((5 + 65536 - 5 % 65536) % 65536 < 32768 ∧ (32772 + 65536 - 5 % 65536) % 65536 < 32768)
    ∧ (¬((4 + 65536 - 5 % 65536) % 65536 < 32768) ∧ ¬((32773 + 65536 - 5 % 65536) % 65536 < 32768))
    ∧ (after (.darkSample 4 [201]) (modIso (fun m => { m with countFrom := .fromRound 5 }) mixed)).lm.iso.litRun = 0
    ∧ (after (.darkSample 5 [201]) (modIso (fun m => { m with countFrom := .fromRound 5 }) mixed)).lm.iso.litRun = 1 := by
  decide +kernel

/-- `mixed` in a test whose step was carried in round 65,533, so that round 5 is its first and round 8 its last. -/
def testing (ph : IsoPhase) (samples lit : Nat) (cand speak : List UnitNo) : State :=
  modIso (fun m => { m with phase := ph, step := if samples = 0 then .settling else .sampling, carriage := 65533,
                            samples := samples, litSamples := lit, hushedSet := cand, cand := cand, speak := speak }) mixed

theorem witness_IsolationTestGivesItsResult : (testing .confirm 0 0 [] []).held = false
    ∧ (testing .confirm 0 0 [] []).lm.iso.step = .settling ∧ (testing .confirm 3 1 [] []).lm.iso.step = .sampling
    ∧ 8 ≤ roundsFrom 65533 5 ∧ roundsFrom 65533 8 ≤ 11
    ∧ LitOver [201] (testing .confirm 3 1 [] []) ∧ ¬LitOver [200] (testing .confirm 3 1 [] [])
    ∧ (testing .confirm 2 0 [] []).lm.iso.samples < 3
    ∧ ((testing .confirm 3 1 [0] []).lm.iso.samples = 3 ∧ 2 ≤ (testing .confirm 3 1 [0] []).lm.iso.litSamples + 1)
    ∧ (testing .confirm 3 1 [0] []).lm.iso.litSamples + 0 < 2
    ∧ (testing .confirm 3 0 [3] []).lm.iso.hushedSet.filter (fun u => onTree (getU u (testing .confirm 3 0 [3] []))) = []
    ∧ (testing .confirm 3 0 [0, 1, 2] []).lm.iso.hushedSet.filter
        (fun u => onTree (getU u (testing .confirm 3 0 [0, 1, 2] []))) ≠ []
    ∧ (testing .confirm 3 0 [0, 1, 2] []).tli.queue.length + (3 + 1) / 2 ≤ 64
    ∧ ((testing .bisect 3 1 [0, 1] [0]).lm.iso.phase = .bisect ∧ (testing .bisect 3 1 [0, 1] [0]).lm.iso.speak = [0]
        ∧ (getU 0 (testing .bisect 3 1 [0, 1] [0])).serial = some 100
        ∧ serves (getU 0 (testing .bisect 3 1 [0, 1] [0])) = true ∧ (testing .bisect 3 1 [0, 1] [0]).lm.iso.closing = [])
    ∧ 2 ≤ (testing .bisect 3 1 [0, 1, 2] [0, 1]).lm.iso.speak.length
    ∧ (testing .bisect 3 1 [0] [0]).lm.iso.cand.filter (fun u => u ∉ (testing .bisect 3 1 [0] [0]).lm.iso.speak) = []
    ∧ (testing .bisect 3 1 [0, 1] [0]).lm.iso.cand.filter (fun u => u ∉ (testing .bisect 3 1 [0, 1] [0]).lm.iso.speak) ≠ [] := by
  unfold LitOver
  decide +kernel

/-- `testing` with unit 2, in RANGING, the one that speaks, and returning as given. -/
def condemning (returning : Bool) : State := modU 2 (fun r => { r with returning := returning }) (testing .bisect 3 1 [0, 2] [2])

/-- A condemned record in RANGING, returning or not, with or without room in the queue and a closing offer that waits. -/
theorem witness_condemned_ranging : ((condemning true).lm.iso.speak = [2] ∧ (getU 2 (condemning true)).serial = some 102)
    ∧ (onTree (getU 2 (condemning true)) = true ∧ inService (getU 2 (condemning true)) = true)
    ∧ (onTree (getU 2 (condemning false)) = true ∧ neverServed (getU 2 (condemning false)) = true)
    ∧ ((condemning false).lm.iso.closing = [] ∧ (queued 61 (condemning false)).tli.queue.length + 3 ≤ 64)
    ∧ ((queued 64 (condemning false)).tli.queue.length = 64
        ∧ ∀ q ∈ (queued 64 (condemning false)).tli.queue, isAssignFor 2 q.order = false ∧ isEqdFor 2 q.order = false)
    ∧ ((getU 2 (after (.darkSample 8 [201]) (condemning true))).state = .retiring
        ∧ (getU 2 (after (.darkSample 8 [201]) (condemning false))).state = .free) := by
  decide +kernel

/-- A closing offer of one order, refused and due. -/
def waitingClosing : State := modIso (fun m => { m with stepDue := true, closing := [⟨[.speakAll], .all⟩] }) mixed

/-- `s` with the hush flag of every record set. -/
def hushedAll (s : State) : State := mapU (fun r => { r with hush := true }) s

/-- The premises of the two verdicts' closing offers: nothing hushed, or units 0 to 2, with room for them to the last place, with
none, or behind an offer that waits. -/
theorem witness_closing_offers : let s := testing .confirm 3 0 [3] []
    (allUnits.filter (fun u => onTree (getU u s) && (getU u s).hush) = []
      ∧ allUnits.filter (fun u => onTree (getU u (hushedAll s)) && (getU u (hushedAll s)).hush) = [0, 1, 2])
    ∧ (s.lm.iso.closing = [] ∧ (queued 61 s).tli.queue.length + 3 ≤ 64 ∧ 64 < (queued 62 s).tli.queue.length + min 32 3)
    ∧ waitingClosing.lm.iso.closing ≠ []
    ∧ urgentOrders (after (.darkSample 8 [200]) (hushedAll s)) = [.speakUnit 0, .speakUnit 1, .speakUnit 2]
    ∧ (after (.darkSample 8 [200]) (queued 62 (hushedAll s))).lm.iso.closing.flatMap (·.orders)
        = [.speakUnit 0, .speakUnit 1, .speakUnit 2]
    ∧ urgentOrders (after (.darkSample 8 [201]) (testing .confirm 3 1 [] [])) = [.speakAll] := by
  decide +kernel

/-- The plan of `awaiting`. -/
def awaitingPlan : Plan := ⟨9, [grant 0 .data 100 15 3 2, grant 1 .reportOnly 115 10 0 0], 0⟩

/-- Unit 1's guard follows unit 0's grant; unit 0's follows nothing. -/
theorem witness_GuardSampleChargesATail : awaiting.held = false ∧ findPlan 9 awaiting = some awaitingPlan
    ∧ unitGrant 1 awaitingPlan = some (grant 1 .reportOnly 115 10 0 0) ∧ (grant 1 .reportOnly 115 10 0 0).guarded = false
    ∧ (∃ q, predecessor 115 awaitingPlan = some q ∧ q.unit = (0 : UnitNo).val)
    ∧ unitGrant 0 awaitingPlan = some (grant 0 .data 100 15 3 2) ∧ predecessor 100 awaitingPlan = none
    ∧ (getU 0 awaiting).tailSpan < 64 ∧ (getU 0 (modU 0 (fun r => { r with tailSpan := 63 }) awaiting)).tailSpan < 64
    ∧ ¬LitOver [200] awaiting ∧ LitOver [201] awaiting ∧ serves (getU 0 awaiting) = true
    ∧ serves (getU 0 (modU 0 (fun r => { r with state := .ranging }) awaiting)) = false
    ∧ (getU 0 (modU 0 (fun r => { r with tailEvents := 2 }) awaiting)).tailEvents < 3 := by
  refine ⟨by decide +kernel, by decide +kernel, by decide +kernel, by decide +kernel,
    ⟨grant 0 .data 100 15 3 2, by decide +kernel⟩, ?_⟩
  unfold LitOver
  decide +kernel

theorem witness_FourthTailEventRangesOrCondemns :
    let s := modU 0 (fun r => { r with tailEvents := 3, tailSpan := 63, tailReranges := 2 }) awaiting
    s.held = false ∧ findPlan 9 s = some awaitingPlan ∧ unitGrant 0 awaitingPlan = some (grant 0 .data 100 15 3 2)
    ∧ (grant 0 .data 100 15 3 2).guarded = false ∧ predecessor 100 awaitingPlan = none ∧ LitOver [201] s
    ∧ serves (getU 0 s) = true ∧ (getU 0 s).tailEvents = 3 ∧ (getU 0 s).tailSpan < 64 ∧ (getU 0 s).serial = some 100
    ∧ 2 ≤ (getU 0 s).tailReranges ∧ (getU 0 (modU 0 (fun r => { r with tailReranges := 1 }) s)).tailReranges < 2
    ∧ (queued 63 s).tli.queue.length < 64 ∧ 64 ≤ (queued 64 s).tli.queue.length := by
  unfold LitOver
  decide +kernel

/-- HOLDOFF at its end with cause `c`. -/
def endingHoldoff (c : HoldCause) : State := modIso (fun m => { m with phase := .holdoff, cause := c }) mixed

/-- A SPEAK_UNIT step of two orders, refused and due. -/
def waitingStep : State := modIso (fun m => { m with phase := .bisect, step := .waiting, stepKind := .speak, speak := [0, 1], stepDue := true }) mixed

theorem witness_SearchOffersAndClears : (endingHoldoff .unenrolled).held = false
    ∧ (endingHoldoff .unenrolled).lm.iso.phase = .holdoff ∧ (endingHoldoff .unenrolled).lm.iso.holdoff = 0
    ∧ (endingHoldoff .unenrolled).lm.iso.cause = .unenrolled ∧ (endingHoldoff .unenrolled).lm.iso.closing = []
    ∧ (queued 63 (endingHoldoff .unenrolled)).tli.queue.length < 64
    ∧ (endingHoldoff .unlocated).lm.iso.cause = .unlocated ∧ (endingHoldoff .unlocated).lm.iso.closingOut = 0
    ∧ (waitingStep.lm.iso.stepDue = true ∧ waitingStep.lm.iso.step = .waiting
        ∧ stepOrders waitingStep.lm.iso.stepKind waitingStep.lm.iso = [.speakUnit 0, .speakUnit 1])
    ∧ (queued 62 waitingStep).tli.queue.length + 2 ≤ 64 ∧ 64 < (queued 63 waitingStep).tli.queue.length + 2
    ∧ (waitingClosing.lm.iso.stepDue = true ∧ waitingClosing.lm.iso.step ≠ .waiting
        ∧ waitingClosing.lm.iso.closing = [⟨[.speakAll], .all⟩] ∧ orderGroup .speakAll = 1)
    ∧ (queued 63 waitingClosing).tli.queue.length + 1 ≤ 64 ∧ 64 < (queued 64 waitingClosing).tli.queue.length + 1 := by
  decide +kernel

/-- A search over three suspects of which `speak` speak, its step at `st`. -/
def searching (st : StepState) (speak : List UnitNo) : State :=
  modIso (fun m => { m with phase := .bisect, cand := [0, 1, 2], speak := speak, step := st }) mixed

theorem witness_removal : mixed.lm.iso.phase = .watch ∧ (modIso (fun m => { m with phase := .confirm }) mixed).lm.iso.phase = .confirm
    ∧ ((searching .sampling [0, 1]).lm.iso.speak.filter (fun v => v ≠ 0) ≠ [] ∧ (searching .waiting []).lm.iso.speak = [])
    ∧ ((searching .toCarry [0]).lm.iso.speak.filter (fun v => v ≠ 0) = [] ∧ (searching .toCarry [0]).lm.iso.speak ≠ []
        ∧ (searching .toCarry [0]).lm.iso.cand.filter (fun v => v ≠ 0) = [1, 2])
    ∧ (queued 63 (searching .sampling [0])).tli.queue.length + (2 + 1) / 2 ≤ 64
    ∧ 64 < (queued 64 (searching .sampling [0])).tli.queue.length + (2 + 1) / 2
    ∧ (modIso (fun m => { m with cand := [0] }) (searching .sampling [0])).lm.iso.cand.filter (fun v => v ≠ 0) = [] := by
  decide +kernel

/-! ### Witnesses: usage, the district and the lists -/

theorem toUs_heeded : Heeded toUs mixed ∧ Heeded toAll mixed
    ∧ Heeded toUs { mixed with sc := { mixed.sc with phase := .restarting } } := by
  unfold Heeded
  decide +kernel

theorem witness_TakeCopiesTheLiveSets : mixed.held = false ∧ Heeded toUs mixed ∧ mixed.sc.phase = .serving
    ∧ (onTree (getU 0 mixed) = true ∧ (getA 0 mixed).snapshot = none)
    ∧ (onTree (getU 3 mixed) = false ∧ (getA 3 mixed).snapshot ≠ none) :=
  ⟨by decide +kernel, toUs_heeded.1, by decide +kernel⟩

theorem witness_BandSetsTheCurrentBand : Taken toUs served ∧ (3 : Byte).toNat = (3 : Band).val ∧ 4 ≤ (4 : Byte).toNat :=
  ⟨served_taken.1, by decide⟩

/-- An unqueued snapshot of unit 0 with pacing due and three notices out. -/
def pacing : State :=
  let s1 := modA 0 (fun _ => ⟨CounterSet.zero, 1, some ⟨CounterSet.zero, 1, false, false, .unqueued, false⟩⟩) mixed
  { s1 with ucb := { s1.ucb with paceDue := true, out := 3 } }

theorem witness_PacingQueuesUpToFour : mixed.ucb.paceDue = false ∧ pacing.held = false ∧ pacing.ucb.paceDue = true
    ∧ pacing.ucb.out ≤ 4 ∧ usageHeld (boxed 28 pacing).sbp.outbox ≤ pacing.ucb.out ∧ OutboxRoom 4 (boxed 28 pacing)
    ∧ unqueued (getA 0 pacing) = true ∧ (after .usagePacingRetry pacing).ucb.out = 4 := by
  unfold OutboxRoom
  decide +kernel

/-- Unqueued snapshots of units 0 and 2 with the pointer at unit 1 and two notices out: unit 2's notice comes first. -/
def pacingRing : State :=
  let p : Account := ⟨CounterSet.zero, 1, some ⟨CounterSet.zero, 1, false, false, .unqueued, false⟩⟩
  let s1 := modA 0 (fun _ => p) (modA 2 (fun _ => p) mixed)
  { s1 with ucb := { s1.ucb with paceDue := true, out := 2, pacePtr := 1 } }

theorem witness_pacing_ring : pacingRing.ucb.paceDue = true ∧ pacingRing.ucb.out ≤ 4
    ∧ usageHeld pacingRing.sbp.outbox ≤ pacingRing.ucb.out ∧ OutboxRoom 4 pacingRing
    ∧ (after .usagePacingRetry pacingRing).sbp.outbox.map (·.body) = [.usage 2 none, .usage 0 none]
    ∧ (after .usagePacingRetry pacingRing).ucb.pacePtr = 0 := by
  unfold OutboxRoom
  decide +kernel

theorem peers : PeerNotice peer15 15 mixed ∧ PeerNotice peer1 1 mixed := by
  unfold PeerNotice
  decide +kernel

/-- An interval close is at hand, and peer 15's load is three closes old, peer 1's two. -/
def closing : State :=
  setLoad 15 ⟨5, 3, true⟩ (setLoad 1 ⟨5, 2, true⟩ { mixed with gs := { mixed.gs with intervalCount := 64 } })

theorem witness_LoadsSetTheDistrictFactor : mixed.held = false ∧ PeerNotice peer15 15 mixed
    ∧ (16 ≤ (⟨16, 31⟩ : NoticeHead).sender.val ∧ (⟨0, 31⟩ : NoticeHead).sender.val = mixed.sc.station.val)
    ∧ closing.gs.intervalCount = 64 ∧ (15 : TreeStation) ≠ closing.sc.station ∧ (closing.dv.loads.get 15).present = true
    ∧ 3 ≤ (closing.dv.loads.get 15).age ∧ (closing.dv.loads.get 1).age < 3 ∧ OutboxRoom 1 (boxed 31 closing) :=
  ⟨by decide +kernel, peers.1, by unfold OutboxRoom; decide +kernel⟩

/-- A claims list of `n` held claims behind one of kind `k` from peer 1 for serial 0. -/
def claimed (n : Nat) (k : StoredClaim) (s : State) : State :=
  { s with dv := { s.dv with
      claims := ⟨0, 1, 0, k, 0⟩ :: (List.range n).map (fun i => ⟨BitVec.ofNat 64 (i + 1), 1, 0, .held, 0⟩) } }

theorem witness_PeerClaimIsStored : mixed.held = false ∧ PeerNotice peer1 1 mixed ∧ (1023 : BitVec 16).toNat ≤ 1023
    ∧ (∃ e ∈ (claimed 30 .held mixed).dv.claims, e.serial = 30 ∧ e.peer = 1)
    ∧ ((∀ e ∈ (claimed 30 .held mixed).dv.claims, ¬(e.serial = 99 ∧ e.peer = 1)) ∧ (claimed 30 .held mixed).dv.claims.length < 32)
    ∧ ((∀ e ∈ (claimed 31 .claiming mixed).dv.claims, ¬(e.serial = 99 ∧ e.peer = 1))
        ∧ (claimed 31 .claiming mixed).dv.claims.length = 32)
    ∧ findUnit 99 mixed = none :=
  ⟨by decide +kernel, peers.2, by decide +kernel⟩

theorem enrolling_peer : PeerNotice peer1 1 enrolling := by
  unfold PeerNotice
  decide +kernel

theorem witness_PeerClaimIsJudged : enrolling.held = false ∧ PeerNotice peer1 1 enrolling
    ∧ (findUnit 105 enrolling = some 5 ∧ neverServed (getU 5 enrolling) = true ∧ (getU 5 enrolling).state = .claiming)
    ∧ ((499 : BitVec 16).toNat < (getU 5 enrolling).level)
    ∧ ((getU 5 enrolling).level = (500 : BitVec 16).toNat ∧ enrolling.sc.station < 1)
    ∧ ¬((501 : BitVec 16).toNat < (getU 5 enrolling).level
        ∨ ((getU 5 enrolling).level = (501 : BitVec 16).toNat ∧ enrolling.sc.station < 1))
    ∧ (findUnit 100 enrolling = some 0 ∧ inService (getU 0 enrolling) = true)
    ∧ (findUnit 102 enrolling = some 2 ∧ inService (getU 2 enrolling) = true ∧ (getU 2 enrolling).state = .ranging)
    ∧ (findUnit 103 enrolling = some 3 ∧ (getU 3 enrolling).state = .retiring)
    ∧ OutboxRoom 1 (boxed 31 enrolling) ∧ OutboxRoom 3 (boxed 29 enrolling) :=
  ⟨by decide +kernel, enrolling_peer, by unfold OutboxRoom; decide +kernel⟩

theorem witness_ReleasedClaimRemovesItsEntry : mixed.held = false ∧ PeerNotice peer15 15 mixed
    ∧ (1023 : BitVec 16).toNat ≤ 1023 ∧ 1023 < (1024 : BitVec 16).toNat ∧ 16 ≤ (⟨16, 31⟩ : NoticeHead).sender.val
    ∧ (⟨0, 31⟩ : NoticeHead).sender.val = mixed.sc.station.val :=
  ⟨by decide +kernel, peers.1, by decide +kernel⟩

/-- A barred list of `n` entries of this station's origin. -/
def barredList (n : Nat) (s : State) : State :=
  { s with dv := { s.dv with barred := (List.range n).map (fun i => ⟨BitVec.ofNat 64 (300 + i), 0, .rogue⟩),
                             lostBars := [⟨300, .rogue, true⟩, ⟨7, .tail, true⟩] } }

theorem witness_BarsAreStoredAndAct : enrolling.held = false ∧ PeerNotice peer1 1 enrolling
    ∧ (∃ b ∈ (barredList 15 enrolling).dv.barred, b.serial = 314)
    ∧ ((∀ b ∈ (barredList 15 enrolling).dv.barred, b.serial ≠ 105) ∧ (barredList 15 enrolling).dv.barred.length < 16)
    ∧ ((∀ b ∈ (barredList 16 enrolling).dv.barred, b.serial ≠ 105) ∧ 16 ≤ (barredList 16 enrolling).dv.barred.length)
    ∧ findUnit 99 enrolling = none
    ∧ (findUnit 105 enrolling = some 5 ∧ neverServed (getU 5 enrolling) = true)
    ∧ (findUnit 100 enrolling = some 0 ∧ inService (getU 0 enrolling) = true)
    ∧ (findUnit 103 enrolling = some 3 ∧ (getU 3 enrolling).state = .retiring)
    ∧ ((0 : Byte) ≠ 1 ∧ (3 : Byte) ≠ 2)
    ∧ (barredList 16 enrolling).dv.lostBars.find? (fun b => b.serial == 300 && b.due) = some ⟨300, .rogue, true⟩
    ∧ (∃ e ∈ (barredList 16 enrolling).dv.barred, e.serial = 300 ∧ e.origin = enrolling.sc.station)
    ∧ (barredList 16 enrolling).dv.lostBars.find? (fun b => b.serial == 7 && b.due) = some ⟨7, .tail, true⟩
    ∧ (∀ e ∈ (barredList 16 enrolling).dv.barred, ¬(e.serial = 7 ∧ e.origin = enrolling.sc.station))
    ∧ OutboxRoom 1 (boxed 31 enrolling) :=
  ⟨by decide +kernel, enrolling_peer, by unfold OutboxRoom; decide +kernel⟩

theorem witness_PresenceNoticeIsAnswered : mixed.held = false ∧ PeerNotice peer15 15 mixed
    ∧ serves (getU 2 mixed) = false ∧ serves (getU 0 mixed) = true ∧ (getU 0 mixed).serial = some 100
    ∧ (boxed 29 (barring mixed)).sbp.outbox.length + (allUnits.filter (fun u => serves (getU u (barring mixed)))).length
        + ((barring mixed).dv.barred.filter (fun e => e.origin == (barring mixed).sc.station)).length = 32 :=
  ⟨by decide +kernel, peers.1, by decide +kernel⟩

theorem witness_UnbarRemovesTheEntry : Taken toUs served ∧ Taken toUs (barring served)
    ∧ (∃ b ∈ (barring served).dv.barred, b.serial = 7) ∧ (∀ b ∈ served.dv.barred, b.serial ≠ 7) := by
  unfold Taken Heeded
  decide +kernel

/-! ### Witnesses: the shelf bus port -/

theorem witness_ReceivedNoticeIsItsCommand : isMalformed .take = false ∧ isMalformed (.malformed 11) = true
    ∧ (State.reset.held = false ∧ 12 ≤ 12) ∧ State.reset.sbp.slot = none ∧ served.sbp.slot = none
    ∧ ({ served with sbp := { served.sbp with heardQuiet := true } } : State).sbp.heardQuiet = true := by decide +kernel

/-- STRANGER is raised with a subject and `n` waiting serials. -/
def raised (n : Nat) (s : State) : State :=
  modK .stranger (fun _ => ⟨true, some 1, (List.range n).map (fun i => BitVec.ofNat 64 (i + 2)), 65535, .due⟩) s

/-- The part with one round of LISTEN left. -/
def listening : State := { State.reset with sc := { State.reset.sc with listenCount := 1 } }

/-- The part with one round of ENLIST left. -/
def enlisting : State := { State.reset with sc := { State.reset.sc with phase := .enlist, listenCount := 0, enlistCount := 1 } }

theorem toUs_refused : ¬Heeded ⟨31, 0, 7⟩ mixed ∧ ¬Heeded ⟨15, 0, 7⟩ mixed := by
  unfold Heeded
  decide +kernel

theorem witness_ChecksTurnNoticesAway : mixed.held = false ∧ (∃ m, mixed.sbp.slot = some ⟨m, true⟩) ∧ served.sbp.slot = none ∧ (List.replicate 72 (0 : Byte)).length ≤ 72
    ∧ (0 : BitVec 16) ≠ crcNotice (0 :: 0 :: BitVec.ofNat 8 0 :: [])
    ∧ ((1 : BusStation).val ≠ 31 ∧ (1 : BusStation).val ≠ mixed.sc.station.val)
    ∧ (¬Heeded ⟨31, 0, 7⟩ mixed ∧ ¬Heeded ⟨15, 0, 7⟩ mixed) ∧ Heeded toUs mixed ∧ Heeded toAll mixed
    ∧ ((Order.take ≠ .restart ∧ State.reset.sc.phase = .listen ∧ enlisting.sc.phase = .enlist) ∧ Order.restart ≠ .take)
    ∧ (State.reset.sbp.heardQuiet = false ∧ 11 < 12 ∧ (List.replicate 4 (0 : Byte)).length < 5
        ∧ (List.replicate 73 (0 : Byte)).length < (72 : Byte).toNat + 2 ∧ 72 < (73 : Byte).toNat
        ∧ (List.replicate 10 (0 : Byte)).length ≠ 11 ∧ (List.replicate 71 (0 : Byte)).length ≠ 72) :=
  ⟨by decide +kernel, ⟨_, rfl⟩, by decide +kernel, by decide +kernel, by decide +kernel, by decide +kernel, toUs_refused, toUs_heeded.1, toUs_heeded.2.1,
   by decide +kernel⟩

/-- The slot holds a notice with this body, being sent. -/
def sending (b : NoticeBody) (s : State) : State := { s with sbp := { s.sbp with slot := some ⟨⟨5, b⟩, true⟩ } }

/-- Unit 0 has a snapshot whose notice is in the outbox. -/
def queuedUsage : State :=
  let s1 := modA 0 (fun _ => ⟨CounterSet.zero, 1, some ⟨CounterSet.zero, 1, false, false, .queued, false⟩⟩) mixed
  { s1 with sbp := { s1.sbp with slot := none, outbox := [⟨6, .usage 0 none⟩] } }

/-- The same, with the notice on the line and a close waiting or not. -/
def usageOnLine (close : Bool) : State :=
  sending (.usage 0 (some ⟨0, 100, 1, false, false, CounterSet.zero⟩))
    (modA 0 (fun _ => ⟨CounterSet.zero, 1, some ⟨CounterSet.zero, 1, false, false, .onLine, close⟩⟩) mixed)

theorem witness_TransmitSlotHoldsOneNotice : mixed.held = false ∧ 11 < 12 ∧ 12 ≤ 12
    ∧ (∃ sl, mixed.sbp.slot = some sl)
    ∧ (queuedUsage.sbp.slot = none ∧ queuedUsage.sbp.outbox = ⟨6, .usage 0 none⟩ :: []
        ∧ (getU 0 queuedUsage).serial = some 100 ∧ (getA 0 queuedUsage).snapshot.isSome = true)
    ∧ ((boxed 1 served).sbp.slot = none ∧ (boxed 1 served).sbp.outbox = ⟨0, .claim 1 0 .held 0⟩ :: [])
    ∧ (sending (.bar 7 .tail) mixed).sbp.slot = some ⟨⟨5, .bar 7 .tail⟩, true⟩
    ∧ (sending (.claim 7 0 .claiming 5) mixed).sbp.slot = some ⟨⟨5, .claim 7 0 .claiming 5⟩, true⟩
    ∧ (sending (.claim 7 0 .held 5) mixed).sbp.slot = some ⟨⟨5, .claim 7 0 .held 5⟩, true⟩
    ∧ (sending (.alarm .stranger 1 (some 1)) (raised 0 mixed)).sbp.slot = some ⟨⟨5, .alarm .stranger 1 (some 1)⟩, true⟩
    ∧ ((getK .stranger (raised 0 mixed)).raised = true ∧ (getK .stranger (raised 0 mixed)).subject = some 1
        ∧ (getK .stranger (raised 0 mixed)).subject ≠ some 2 ∧ (getK .stranger (raised 0 mixed)).reoffer = .due)
    ∧ (served.sbp.slot = none ∧ served.sbp.outbox = [])
    ∧ (sending (.presence .powerOn .n) mixed).sbp.slot = some ⟨⟨5, .presence .powerOn .n⟩, true⟩
    ∧ ((getA 0 (usageOnLine false)).snapshot = some ⟨CounterSet.zero, 1, false, false, .onLine, false⟩)
    ∧ ((usageOnLine true).sbp.slot = some ⟨⟨5, .usage 0 (some ⟨0, 100, 1, false, false, CounterSet.zero⟩)⟩, true⟩
        ∧ (getA 0 (usageOnLine true)).snapshot = some ⟨CounterSet.zero, 1, false, false, .onLine, true⟩
        ∧ (getU 0 (usageOnLine true)).serial = some 100) := by
  refine ⟨by decide +kernel, by decide, by decide, ⟨_, rfl⟩, by decide +kernel⟩

/-- A counter set with `n` upstream bytes in band 0. -/
def counted (n : Nat) : CounterSet := { CounterSet.zero with up := #v[n, 0, 0, 0] }

/-- Unit 0 with `live` bytes since a snapshot of `held` bytes, whose notice is in the outbox or on the line. -/
def accounted (live held : Nat) (place : NoticeState) : State :=
  modA 0 (fun _ => ⟨counted live, 1, some ⟨counted held, 1, false, false, place, decide (place = .onLine)⟩⟩)
    (usageOnLine false)

/-- The up counter of band 0 of unit 0's snapshot, and whether the snapshot is final. -/
def billed (s : State) : Option (Nat × Bool) := (getA 0 s).snapshot.map (fun p => (p.counters.up.get 0, p.isFinal))

/-- R148: a retirement moves the live set to a new snapshot, adds it into one not on the line, saturating, or leaves it for the
notice's outcome, which a line fault then brings. -/
theorem witness_BillingClosed : (getA 0 mixed).snapshot = none
    ∧ (getA 0 (accounted 5 7 .queued)).snapshot = some ⟨counted 7, 1, false, false, .queued, false⟩
    ∧ (getA 0 (accounted 5 7 .onLine)).snapshot = some ⟨counted 7, 1, false, false, .onLine, true⟩
    ∧ billed (after (.revoke toUs 100) (modA 0 (fun _ => ⟨counted 5, 65535, none⟩) mixed)) = some (5, true)
    ∧ (getA 0 (after (.revoke toUs 100) (modA 0 (fun _ => ⟨counted 5, 65535, none⟩) mixed))).takeNo = 0
    ∧ billed (after (.revoke toUs 100) (accounted 5 7 .queued)) = some (12, true)
    ∧ billed (after (.revoke toUs 100) (accounted 5 7 .onLine)) = some (7, false)
    ∧ billed (after .lineFault (after (.revoke toUs 100) (accounted 5 7 .onLine))) = some (12, true)
    ∧ billed (after .lineFault (accounted 1 281474976710655 .onLine)) = some (281474976710655, true)
    ∧ (getK .counterSaturated (after .lineFault (accounted 1 281474976710655 .onLine))).raised = true
    ∧ (getK .counterSaturated (after .lineFault (accounted 0 281474976710655 .onLine))).raised = false := by
  decide +kernel

theorem witness_SentNoticeReachesItsProducer : (sending (.claim 105 500 .claiming 5) reclaiming).held = false
    ∧ (sending (.claim 105 500 .claiming 5) reclaiming).sbp.slot = some ⟨⟨5, .claim 105 500 .claiming 5⟩, true⟩
    ∧ (getE 5 (modE 5 (fun e => { e with claimRef := some 5 }) reclaiming)).claimRef = some 5
    ∧ (getU 5 reclaiming).state = .claiming ∧ (getU 5 reclaiming).settleStarted = false
    ∧ (mixed.sbp.slot = some ⟨⟨5, .usage 3 (some ⟨3, 103, 1, true, false, CounterSet.zero⟩)⟩, true⟩
        ∧ (getA 3 mixed).snapshot = some ⟨CounterSet.zero, 1, true, false, .onLine, false⟩
        ∧ (getU 3 mixed).serial = some 103)
    ∧ ((usageOnLine true).sbp.slot = some ⟨⟨5, .usage 0 (some ⟨0, 100, 1, false, false, CounterSet.zero⟩)⟩, true⟩
        ∧ (getA 0 (usageOnLine true)).snapshot = some ⟨CounterSet.zero, 1, false, false, .onLine, true⟩
        ∧ (getU 0 (usageOnLine true)).serial = some 100)
    ∧ (getA 0 (usageOnLine false)).snapshot = some ⟨CounterSet.zero, 1, false, false, .onLine, false⟩
    ∧ ((getU 3 mixed).barSent = false ∧ (getU 3 (modU 3 (fun r => { r with barSent := true }) mixed)).barSent = true
        ∧ (queued 63 mixed).tli.queue.length < 64 ∧ 64 ≤ (queued 64 mixed).tli.queue.length)
    ∧ OutboxRoom 6 (boxed 26 mixed) := by
  unfold OutboxRoom
  decide +kernel

/-- An outbox of 32 notices, the last 4 of them usage notices or presence notices. -/
def fullBox (last : NoticeBody) (s : State) : State :=
  { s with sbp := { s.sbp with outbox := List.replicate 28 ⟨0, .claim 1 0 .held 0⟩ ++ List.replicate 4 ⟨1, last⟩ } }

theorem witness_FullOutboxGivesUpTheLeastUrgent : OutboxLaw (fullBox (.presence .powerOn .n) mixed)
    ∧ OutboxLaw (fullBox (.usage 0 none) mixed) ∧ OutboxLaw (boxed 32 mixed)
    ∧ (fullBox (.presence .powerOn .n) mixed).sbp.outbox.length = 32 ∧ usageHeld (fullBox (.usage 0 none) mixed).sbp.outbox = 4
    ∧ (NoticeBody.bar 7 .tail).isLoad = false ∧ (NoticeBody.bar 7 .tail).cls < (NoticeBody.presence .powerOn .n).cls
    ∧ (NoticeBody.claim 1 0 .held 0).cls ≤ (NoticeBody.bar 7 .tail).cls := by
  unfold OutboxLaw
  decide +kernel

/-! ### Witnesses: alarms, start and restart -/

theorem witness_OccurrenceLatchesItsRecord : AlarmKind.stranger ≠ .outboxOverflow ∧ OutboxRoom 1 (boxed 31 mixed)
    ∧ (getK .stranger mixed).raised = false ∧ masked .stranger mixed = false
    ∧ masked .stranger { mixed with sc := { mixed.sc with settings := some { Settings.defaults with maskNotable := true } } } = true
    ∧ ((getK .stranger (raised 3 mixed)).raised = true ∧ (getK .stranger (raised 3 mixed)).subject = some 1)
    ∧ (4 : Serial) ∈ (getK .stranger (raised 3 mixed)).waiting ∧ 4 ≤ (getK .stranger (raised 4 mixed)).waiting.length
    ∧ ((getK .stranger (raised 3 mixed)).subject ≠ some 5 ∧ (5 : Serial) ∉ (getK .stranger (raised 3 mixed)).waiting
        ∧ (getK .stranger (raised 3 mixed)).waiting.length < 4) := by
  unfold OutboxRoom
  decide +kernel

theorem reset_heeded : Heeded toUs State.reset ∧ Heeded toUs enlisting := by
  unfold Heeded
  decide +kernel

theorem witness_AlarmClearRotatesOrClears : mixed.held = false ∧ Heeded toUs mixed ∧ mixed.sc.phase = .serving
    ∧ (Heeded toUs State.reset ∧ State.reset.sc.phase = .listen) ∧ (Heeded toUs enlisting ∧ enlisting.sc.phase = .enlist)
    ∧ (20 < (21 : Byte).toNat ∧ alarmNumber .rogueCondemned = (1 : Byte).toNat ∧ alarmNumber .unitJoined = (20 : Byte).toNat)
    ∧ ((getK .stranger mixed).raised = false ∧ alarmNumber .stranger = (16 : Byte).toNat)
    ∧ ((getK .stranger (raised 0 mixed)).raised = true ∧ (getK .stranger (raised 0 mixed)).waiting = [])
    ∧ (getK .stranger (raised 1 mixed)).waiting = 2 :: []
    ∧ (getK .stranger (raised 0 mixed)).reoffer = .due ∧ (getK .stranger mixed).reoffer = .idle
    ∧ (getK .stranger (modK .stranger (fun a => { a with reoffer := .dueAgain }) mixed)).reoffer = .dueAgain ∧ OutboxRoom 1 (boxed 31 mixed) :=
  ⟨by decide +kernel, toUs_heeded.1, by decide +kernel, ⟨reset_heeded.1, by decide +kernel⟩, ⟨reset_heeded.2, by decide +kernel⟩,
   by unfold OutboxRoom; decide +kernel⟩

theorem witness_StartPhasesEnd : listening.held = false ∧ listening.sc.phase = .listen ∧ listening.sc.listenCount ≤ 1
    ∧ listening.sc.settings = none
    ∧ ({ listening with sc := { listening.sc with settings := some Settings.defaults } } : State).sc.settings ≠ none
    ∧ enlisting.held = false ∧ enlisting.sc.phase = .enlist ∧ enlisting.sc.enlistCount ≤ 1
    ∧ (getK .settingsDefaulted enlisting).raised = false ∧ OutboxRoom 1 (boxed 31 enlisting) := by
  unfold OutboxRoom
  decide +kernel

/-- Every field at the top of its range, and at the bottom. -/
theorem witness_SettingsAreTakenOnce : State.reset.held = false ∧ Heeded toUs State.reset ∧ served.sc.settings ≠ none
    ∧ State.reset.sc.settings = none
    ∧ settingsOk ⟨0x7FFF, 1023, 400000, 1024, 8, 7⟩ = true ∧ settingsOk ⟨1, 0, 1, 16, 2, 0⟩ = true
    ∧ settingsOk ⟨0, 0, 1, 16, 2, 0⟩ = false ∧ settingsOk ⟨0x8000, 0, 1, 16, 2, 0⟩ = false
    ∧ settingsOk ⟨1, 1024, 1, 16, 2, 0⟩ = false ∧ settingsOk ⟨1, 0, 0, 16, 2, 0⟩ = false
    ∧ settingsOk ⟨1, 0, 400001, 16, 2, 0⟩ = false ∧ settingsOk ⟨1, 0, 1, 15, 2, 0⟩ = false
    ∧ settingsOk ⟨1, 0, 1, 1025, 2, 0⟩ = false ∧ settingsOk ⟨1, 0, 1, 16, 1, 0⟩ = false
    ∧ settingsOk ⟨1, 0, 1, 16, 9, 0⟩ = false ∧ settingsOk ⟨1, 0, 1, 16, 2, 8⟩ = false
    ∧ enlisting.sc.phase = .enlist ∧ State.reset.sc.phase ≠ .enlist :=
  ⟨by decide +kernel, reset_heeded.1, by decide +kernel⟩

theorem witness_RestartClosesEveryUnit : enrolling.held = false ∧ Heeded toUs State.reset ∧ State.reset.sc.phase ≠ .serving
    ∧ enrolling.sc.phase = .serving ∧ inService (getU 0 enrolling) = true ∧ neverServed (getU 5 enrolling) = true
    ∧ (getU 3 enrolling).state = .retiring ∧ (getU 63 enrolling).state = .free :=
  ⟨by decide +kernel, reset_heeded.1, by decide +kernel⟩

theorem witness_RestartEndAndPresenceReoffer : served.sc.restartEnds = false
    ∧ ({ served with sc := { served.sc with phase := .restarting, restartEnds := true } } : State).sc.restartEnds = true
    ∧ ({ State.reset with sc := { State.reset.sc with presence := .due } } : State).sc.presence = .due
    ∧ ({ State.reset with sc := { State.reset.sc with presence := .dueAgain } } : State).sc.presence = .dueAgain
    ∧ State.reset.sc.presence = .idle
    ∧ State.reset.sc.phase = .listen ∧ served.sc.phase = .serving ∧ OutboxRoom 1 (boxed 31 State.reset) := by
  unfold OutboxRoom
  decide +kernel

/-! ### Witnesses: the laws -/

/-- `mixed` with a command in front whose step gives a next state. -/
def stepping : State := { mixed with pending := [.roundMarker []] }

theorem stepping_next : ∃ t, step stepping = .next t := ⟨_, rfl⟩

theorem witness_ListAndAlarmLawsAreKept : (∃ t, step stepping = .next t) ∧ QueueLaw stepping ∧ OutboxLaw stepping
    ∧ EnrolmentListLaw stepping ∧ DistrictListLaw stepping ∧ FactorLaw stepping
    ∧ getK .stranger stepping = AlarmRecord.clear := by
  refine ⟨stepping_next, ?_⟩
  unfold QueueLaw OutboxLaw EnrolmentListLaw DistrictListLaw FactorLaw
  decide +kernel

theorem stepping_alarms : AlarmLaw stepping := by
  intro k
  have h : ∀ i : Fin 20, stepping.alarms.records.get i = AlarmRecord.clear := by decide +kernel
  unfold getK
  rw [h]
  exact ⟨by decide, by decide, (fun x hx => absurd hx (by simp [AlarmRecord.clear])), (fun _ => by decide)⟩

theorem witness_SerialLawIsKept : SerialLaw stepping ∧ ∃ t, step stepping = .next t := by
  have h1 : ∀ u v : UnitNo, (getU u stepping).serial = (getU v stepping).serial → (getU u stepping).serial = none ∨ u = v := by
    decide +kernel
  refine ⟨⟨by decide +kernel, ?_, ?_⟩, stepping_next⟩
  · intro u v x hu hv
    rcases h1 u v (hu.trans hv.symm) with h | h
    · rw [h] at hu; cases hu
    · exact h
  · intro u x _ _
    rfl

theorem witness_RangingAndClosingLawsAreKept : RangingLaw mixed ∧ ClosingLaw mixed ∧ ∃ t, step stepping = .next t :=
  ⟨mixed_ranging, mixed_closing, stepping_next⟩

theorem witness_CreditAndCounterLawsAreKept : CreditLaw stepping ∧ CounterLaw stepping ∧ ∃ t, step stepping = .next t := by
  refine ⟨by unfold CreditLaw; decide +kernel, fun u => ⟨?_, ?_⟩, stepping_next⟩
  · have h : ∀ v : UnitNo, (getA v stepping).live = CounterSet.zero := by decide +kernel
    rw [h u]
    exact fun _ => by decide
  · intro p hp
    have h : ∀ v : UnitNo, ∀ q ∈ (getA v stepping).snapshot, q.counters = CounterSet.zero := by decide +kernel
    rw [h u p hp]
    exact fun _ => by decide

theorem witness_RetiringEndsWithTheFinalNotice : RangingLaw mixed ∧ ClosingLaw mixed ∧ (getU 3 mixed).state = .retiring
    ∧ (getU 3 (after .noticeSent mixed)).state = .free ∧ (getU 3 (after (.resetRelease ⟨0, .n⟩ ⟨true, false, false⟩) mixed)).state
        = .free := ⟨mixed_ranging, mixed_closing, by decide +kernel⟩

end Sys2Proof.Tests
end

/-!
PROOFS. The orders of the Unit Table and the Enrolment Controller: how an order that is taken reaches its owner, and what
PROFILE does.
-/
namespace Sys2Proof.Machine

/-! ### Orders that are taken (R173, R178 to R180) -/

theorem addressed_of_heeded {h : OrderHead} {s : State} (hh : Heeded h s) : addressed h.dest s = true := by
  obtain ⟨hdest, -, -, -⟩ := hh
  simpa [addressed] using hdest

theorem sourceAllowed_of_heeded {h : OrderHead} {s : State} (hh : Heeded h s) : sourceAllowed h.sender s = true := by
  obtain ⟨-, hlow, hhigh, hset⟩ := hh
  simp [sourceAllowed, inForce, hlow, hhigh, hset]

/-- In SERVING every kind reaches its owner; the owner's answer to a malformed order is that of step 1 (R179). -/
theorem orderEffect_serving {s : State} (hs : s.sc.phase = .serving) (o : Order) : orderEffect o s = ownerActs o s := by
  cases o <;> simp [orderEffect, isMalformed, hs, ownerActs]

/-- An order that is taken has its owner's effect and is answered with the owner's outcome. -/
theorem receiveOrder_of_taken {h : OrderHead} {s t : State} {o : Order} {out : AnswerOutcome} {data : KindData}
    (ht : Taken h s) (ho : ownerActs o s = (t, out, data)) :
    receiveOrder h o s = answered h o.kindByte out data t := by
  obtain ⟨-, hserving, hheeded⟩ := ht
  simp [receiveOrder, addressed_of_heeded hheeded, sourceAllowed_of_heeded hheeded, orderEffect_serving hserving, ho,
    answered, answerTo]

theorem unlessHeld_of_taken {h : OrderHead} {s : State} (ht : Taken h s) (f : State → State) :
    unlessHeld f s = .next (f s) := by
  obtain ⟨hheld, -, -⟩ := ht
  simp [unlessHeld, hheld]

/-! ### Profile codes and permits (R25, R40) -/

theorem codesOk_iff (c : ProfileCodes) : codesOk c = true ↔ c.s.toNat ≤ 3 ∧ 1 ≤ c.pk.toNat ∧ c.w.toNat ≤ 15 := by
  simp [codesOk, and_assoc]

theorem findPermit_isSome_iff (x : Serial) (s : State) :
    (findPermit x s).isSome = true ↔ ∃ q ∈ s.ec.permits, q.serial = x := by
  simp [findPermit, List.find?_isSome]

/-- The permit that takes the codes is written anew from the serial and the codes. -/
theorem setPermit_eq (x : Serial) (p : Profile) (s : State) :
    setPermit x p s
      = { s with ec := { s.ec with permits := s.ec.permits.map (fun q => if q.serial = x then ⟨x, p⟩ else q) } } := by
  have hentry : (fun q : Permit => if q.serial = x then { q with profile := p } else q)
      = fun q => if q.serial = x then ⟨x, p⟩ else q := by
    funext q
    split
    case isTrue hq => rw [hq]
    case isFalse => rfl
  rw [setPermit, hentry]

/-! ### PROFILE (R39): one equation for each row of its table -/

section
variable {x : Serial} {c : ProfileCodes} {s : State} {u : UnitNo}

theorem profileOrder_badField (hc : ¬ codesOk c = true) : profileOrder x c s = (s, .badField) := by
  simp [profileOrder, hc]

theorem profileOrder_retiring (hc : codesOk c = true) (hu : findUnit x s = some u) (hr : (getU u s).state = .retiring) :
    profileOrder x c s = (s, .wrongState) := by
  simp [profileOrder, hc, hu, hr]

/-- The codes are staged in the record, and a permit for the serial takes them too. -/
theorem profileOrder_record (hc : codesOk c = true) (hu : findUnit x s = some u) (hr : (getU u s).state ≠ .retiring) :
    profileOrder x c s
      = (setPermit x (profileOf c) (modU u (fun r => { r with staged := some (profileOf c) }) s), .done) := by
  simp [profileOrder, hc, hu, hr]

theorem profileOrder_permit (hc : codesOk c = true) (hu : findUnit x s = none) (hp : ∃ q ∈ s.ec.permits, q.serial = x) :
    profileOrder x c s = (setPermit x (profileOf c) s, .done) := by
  simp [profileOrder, hc, hu, (findPermit_isSome_iff x s).mpr hp]

theorem profileOrder_unknownSerial (hc : codesOk c = true) (hu : findUnit x s = none)
    (hp : ∀ q ∈ s.ec.permits, q.serial ≠ x) : profileOrder x c s = (s, .unknownSerial) := by
  have hnone : ¬ (findPermit x s).isSome = true := by
    rw [findPermit_isSome_iff]
    rintro ⟨q, hq, hx⟩
    exact hp q hq hx
  simp [profileOrder, hc, hu, hnone]

/-- A PROFILE that is taken leaves the state and the outcome of `profileOrder`, and is answered as kind 5 (9.8.2). -/
theorem exec_profile_of_taken {h : OrderHead} {t : State} {out : AnswerOutcome} (ht : Taken h s)
    (ho : profileOrder x c s = (t, out)) : exec (.profile h x c) s = .next (answered h 5 out .none t) := by
  have hact : ownerActs (.profile x c) s = (t, out, .none) := by simp [ownerActs, plainData, ho]
  calc exec (.profile h x c) s
      = unlessHeld (receiveOrder h (.profile x c)) s := rfl
    _ = .next (receiveOrder h (.profile x c) s) := unlessHeld_of_taken ht _
    _ = .next (answered h 5 out .none t) := by rw [receiveOrder_of_taken ht hact, Order.kindByte]

end

/-- Settles O18: the codes' check, and then one row of `profileOrder` for each thing that can hold the serial. -/
theorem profileStagesTheCodes : Obligations.ProfileStagesTheCodes := by
  unfold Obligations.ProfileStagesTheCodes
  intro h x c s ht p permits
  refine ⟨fun hbad => ?badField, fun hs hpk hw => ?_⟩
  case badField =>
    exact exec_profile_of_taken ht (profileOrder_badField (mt (codesOk_iff c).mp hbad))
  have hc : codesOk c = true := (codesOk_iff c).mpr ⟨hs, hpk, hw⟩
  refine ⟨fun u hu hr => ?record, fun u hu hr => ?retiring, fun hu hp => ?permit, fun hu hp => ?nothing⟩
  case record =>
    exact ⟨_, exec_profile_of_taken ht (profileOrder_record hc hu hr), setPermit_eq _ _ _⟩
  case retiring =>
    exact exec_profile_of_taken ht (profileOrder_retiring hc hu hr)
  case permit =>
    have ho := profileOrder_permit hc hu hp
    rw [setPermit_eq] at ho
    exact exec_profile_of_taken ht ho
  case nothing =>
    exact exec_profile_of_taken ht (profileOrder_unknownSerial hc hu hp)

end Sys2Proof.Machine

/-!
PROOFS. The Enrolment Controller's permits: what PERMIT does, test by test.
-/
namespace Sys2Proof.Machine

/-! ### Orders whose answer carries no kind data (R180) -/

/-- The whole path of a taken order, for a kind whose owner answers with an outcome alone. -/
theorem receivePlain_of_taken {h : OrderHead} {s t : State} {o : Order} {out : AnswerOutcome} (ht : Taken h s)
    (ho : ownerActs o s = plainData (t, out)) :
    unlessHeld (receiveOrder h o) s = .next (answered h o.kindByte out .none t) := by
  rw [unlessHeld_of_taken ht, receiveOrder_of_taken ht ho]

/-! ### The searches for a serial (R24, R40, R162) -/

theorem holds_iff (x : Serial) (r : UnitRecord) : holds x r = true ↔ r.state ≠ .free ∧ r.serial = some x := by
  simp [holds]

theorem findUnit_isSome_iff (x : Serial) (s : State) :
    (findUnit x s).isSome = true ↔ ∃ u, (getU u s).state ≠ .free ∧ (getU u s).serial = some x := by
  simp [findUnit, List.find?_isSome, allUnits, holds_iff]

theorem findUnit_eq_none_iff (x : Serial) (s : State) :
    findUnit x s = none ↔ ∀ u, (getU u s).state ≠ .free → (getU u s).serial ≠ some x := by
  simp [findUnit, List.find?_eq_none, allUnits, holds_iff]

theorem findPermit_eq_none_iff (x : Serial) (s : State) :
    findPermit x s = none ↔ ∀ q ∈ s.ec.permits, q.serial ≠ x := by
  simp [findPermit, List.find?_eq_none]

theorem isBarred_iff (x : Serial) (s : State) : isBarred x s = true ↔ ∃ b ∈ s.dv.barred, b.serial = x := by
  simp [isBarred]

theorem isBarred_eq_false_iff (x : Serial) (s : State) : isBarred x s = false ↔ ∀ b ∈ s.dv.barred, b.serial ≠ x := by
  simp [isBarred]

/-! ### PERMIT (R41): one equation for each of its tests, in their order -/

section
variable {x : Serial} {c : ProfileCodes} {s : State}

theorem permitOrder_badField (hc : ¬ codesOk c = true) : permitOrder x c s = (s, .badField) := by
  simp [permitOrder, hc]

theorem permitOrder_barred (hc : codesOk c = true) (hb : isBarred x s = true) : permitOrder x c s = (s, .barred) := by
  simp [permitOrder, hc, hb]

theorem permitOrder_wrongState (hc : codesOk c = true) (hb : isBarred x s = false) (hu : (findUnit x s).isSome = true) :
    permitOrder x c s = (s, .wrongState) := by
  simp [permitOrder, hc, hb, hu]

/-- A permit that stands already takes the codes, and the serial is a stranger no longer. -/
theorem permitOrder_renewed (hc : codesOk c = true) (hb : isBarred x s = false) (hu : findUnit x s = none)
    (hp : (findPermit x s).isSome = true) :
    permitOrder x c s = (removeStranger x (setPermit x (profileOf c) s), .done) := by
  simp [permitOrder, hc, hb, hu, hp]

theorem permitOrder_full (hc : codesOk c = true) (hb : isBarred x s = false) (hu : findUnit x s = none)
    (hp : findPermit x s = none) (hfull : 16 ≤ s.ec.permits.length) : permitOrder x c s = (s, .full) := by
  simp [permitOrder, hc, hb, hu, hp, hfull]

/-- A new permit goes to the end of the list, and the serial is a stranger no longer. -/
theorem permitOrder_added (hc : codesOk c = true) (hb : isBarred x s = false) (hu : findUnit x s = none)
    (hp : findPermit x s = none) (hroom : s.ec.permits.length < 16) :
    permitOrder x c s
      = (removeStranger x { s with ec := { s.ec with permits := s.ec.permits ++ [⟨x, profileOf c⟩] } }, .done) := by
  simp [permitOrder, hc, hb, hu, hp, Nat.not_le.mpr hroom]

/-- A PERMIT that is taken leaves the state and the outcome of `permitOrder`, and is answered as kind 2 (9.8.2). -/
theorem exec_permit_of_taken {h : OrderHead} {t : State} {out : AnswerOutcome} (ht : Taken h s)
    (ho : permitOrder x c s = (t, out)) : exec (.permit h x c) s = .next (answered h 2 out .none t) := by
  have hact : ownerActs (.permit x c) s = plainData (t, out) := by rw [ownerActs, ho]
  exact receivePlain_of_taken ht hact

end

/-- Settles O19: each test's premises say which branch of `permitOrder` is taken. -/
theorem permitTakesItsTestsInOrder : Obligations.PermitTakesItsTestsInOrder := by
  unfold Obligations.PermitTakesItsTestsInOrder
  intro h x c s ht p strangers
  refine ⟨fun hbad => ?badField, fun hs hpk hw => ?_⟩
  case badField =>
    exact exec_permit_of_taken ht (permitOrder_badField (mt (codesOk_iff c).mp hbad))
  have hc : codesOk c = true := (codesOk_iff c).mpr ⟨hs, hpk, hw⟩
  refine ⟨fun hbar => ?barred, fun hclear => ?_⟩
  case barred =>
    exact exec_permit_of_taken ht (permitOrder_barred hc ((isBarred_iff x s).mpr hbar))
  have hb : isBarred x s = false := (isBarred_eq_false_iff x s).mpr hclear
  refine ⟨fun hheld => ?wrongState, fun hfree => ?_⟩
  case wrongState =>
    exact exec_permit_of_taken ht (permitOrder_wrongState hc hb ((findUnit_isSome_iff x s).mpr hheld))
  have hu : findUnit x s = none := (findUnit_eq_none_iff x s).mpr hfree
  refine ⟨fun hp => ?renewed, fun hp hfull => ?full, fun hp hroom => ?added⟩
  case renewed =>
    have ho := permitOrder_renewed hc hb hu ((findPermit_isSome_iff x s).mpr hp)
    rw [setPermit_eq] at ho
    exact exec_permit_of_taken ht ho
  case full =>
    exact exec_permit_of_taken ht (permitOrder_full hc hb hu ((findPermit_eq_none_iff x s).mpr hp) hfull)
  case added =>
    exact exec_permit_of_taken ht (permitOrder_added hc hb hu ((findPermit_eq_none_iff x s).mpr hp) hroom)

end Sys2Proof.Machine

/-!
PROOFS. The District View: what a peer's released claim does to the claims list, and what UNBAR does to the barred list.
-/
namespace Sys2Proof.Machine

/-- A command that a held reset silences acts when none is held (R196; log entry 3). -/
theorem unlessHeld_of_not_held {s : State} (hs : s.held = false) (f : State → State) : unlessHeld f s = .next (f s) := by
  simp [unlessHeld, hs]

/-! ### The peer a notice comes from (R152, R173) -/

theorem peerOf_of_peerNotice {h : NoticeHead} {t : TreeStation} {s : State} (hp : PeerNotice h t s) :
    peerOf h s = some t := by
  obtain ⟨hsender, hother, hdest⟩ := hp
  have hval : t.val ≠ s.sc.station.val := fun heq => hother (Fin.ext heq)
  simp [peerOf, hsender, hval, hdest]

theorem peerOf_of_controller {h : NoticeHead} {s : State} (hs : 16 ≤ h.sender.val) : peerOf h s = none := by
  simp [peerOf, Nat.not_lt.mpr hs]

theorem peerOf_of_self {h : NoticeHead} {s : State} (hs : h.sender.val = s.sc.station.val) : peerOf h s = none := by
  simp [peerOf, hs]

/-! ### RELEASED_CLAIM_NOTICE (R159) -/

theorem hasKey_iff (x : Serial) (t : TreeStation) (e : ClaimEntry) : hasKey x t e = true ↔ e.serial = x ∧ e.peer = t := by
  simp [hasKey]

/-- The EC makes no change for a released claim, whatever the state of the record it finds (R53, R55, R56). -/
theorem judgeClaim_released (x : Serial) (t : TreeStation) (level : Nat) (s : State) :
    judgeClaim x t level .released s = s := by
  unfold judgeClaim
  cases findUnit x s with
  | none => rfl
  | some u =>
    by_cases hnever : neverServed (getU u s) = true
    · simp [hnever]
    · by_cases hserv : inService (getU u s) = true <;> simp [hnever, hserv]

section
variable {h : NoticeHead} {x : Serial} {level : BitVec 16} {s : State}

/-- A released claim that is taken from peer `t` removes the entry with its key, and nothing else changes. -/
theorem releasedStep_of_peer {t : TreeStation} (hp : peerOf h s = some t) (hl : level.toNat ≤ 1023) :
    releasedStep h x level s
      = { s with dv := { s.dv with claims := s.dv.claims.filter (fun e => ¬(e.serial = x ∧ e.peer = t)) } } := by
  simp [releasedStep, hp, Nat.not_lt.mpr hl, judgeClaim_released, ← hasKey_iff]

theorem releasedStep_of_not_peer (hp : peerOf h s = none) : releasedStep h x level s = s := by
  simp [releasedStep, hp]

/-- A claim whose level is out of range is discarded, whoever sent it (R152). -/
theorem releasedStep_of_level (hl : 1023 < level.toNat) : releasedStep h x level s = s := by
  cases hp : peerOf h s with
  | none => exact releasedStep_of_not_peer hp
  | some t => simp [releasedStep, hp, hl]

theorem exec_releasedClaimNotice (hs : s.held = false) :
    exec (.releasedClaimNotice h x level) s = .next (releasedStep h x level s) :=
  unlessHeld_of_not_held hs _

end

/-- Settles O40: a notice from a peer at a level in range removes the key's entry; each of the discards of R152 leaves the state. -/
theorem releasedClaimRemovesItsEntry : Obligations.ReleasedClaimRemovesItsEntry := by
  unfold Obligations.ReleasedClaimRemovesItsEntry
  intro h x level s hs
  rw [exec_releasedClaimNotice hs]
  refine ⟨fun peer hp hl => ?taken, ?discarded⟩
  case taken =>
    rw [releasedStep_of_peer (peerOf_of_peerNotice hp) hl]
  case discarded =>
    rintro (hcontroller | hself | hlevel)
    · rw [releasedStep_of_not_peer (peerOf_of_controller hcontroller)]
    · rw [releasedStep_of_not_peer (peerOf_of_self hself)]
    · rw [releasedStep_of_level hlevel]

/-! ### UNBAR (R166): one equation for each row of its table -/

section
variable {x : Serial} {s : State}

theorem unbarOrder_done (hb : ∃ b ∈ s.dv.barred, b.serial = x) :
    unbarOrder x s
      = ({ s with dv := { s.dv with barred := s.dv.barred.filter (fun b => b.serial ≠ x) } }, .done,
         .unbar (s.dv.barred.filter (fun b => b.serial ≠ x)).length s.dv.claimsOverflow s.dv.evictions) := by
  simp [unbarOrder, (isBarred_iff x s).mpr hb]

/-- No entry names the serial, so the removal leaves the barred list whole. -/
theorem unbarOrder_unknownSerial (hb : ∀ b ∈ s.dv.barred, b.serial ≠ x) :
    unbarOrder x s = (s, .unknownSerial, .unbar s.dv.barred.length s.dv.claimsOverflow s.dv.evictions) := by
  have hwhole : s.dv.barred.filter (fun b => b.serial ≠ x) = s.dv.barred :=
    List.filter_eq_self.mpr fun b hmem => decide_eq_true (hb b hmem)
  simp only [unbarOrder, hwhole, (isBarred_eq_false_iff x s).mpr hb, Bool.false_eq_true, if_false]

/-- An UNBAR that is taken leaves the state, the outcome and the counts of `unbarOrder`, and is answered as kind 9 (9.8.2). -/
theorem exec_unbar_of_taken {h : OrderHead} {t : State} {out : AnswerOutcome} {data : KindData} (ht : Taken h s)
    (ho : unbarOrder x s = (t, out, data)) : exec (.unbar h x) s = .next (answered h 9 out data t) := by
  have hact : ownerActs (.unbar x) s = (t, out, data) := by rw [ownerActs, ho]
  calc exec (.unbar h x) s
      = .next (receiveOrder h (.unbar x) s) := unlessHeld_of_taken ht _
    _ = .next (answered h 9 out data t) := by rw [receiveOrder_of_taken ht hact, Order.kindByte]

end

/-- Settles O43: one row of `unbarOrder` for a listed serial and one for any other. -/
theorem unbarRemovesTheEntry : Obligations.UnbarRemovesTheEntry := by
  unfold Obligations.UnbarRemovesTheEntry
  intro h x s ht t
  exact ⟨fun hb => exec_unbar_of_taken ht (unbarOrder_done hb),
    fun hb => exec_unbar_of_taken ht (unbarOrder_unknownSerial hb)⟩

end Sys2Proof.Machine

/-!
PROOFS. The Alarm Table: what an occurrence writes in the record of its kind, and that the offer of its notice leaves it there.
-/
namespace Sys2Proof.Machine

/-! ### What an occurrence does to the record itself (R186) -/

section
variable {x : Option Serial} {v : Serial} {a : AlarmRecord}

@[simp] theorem latchRecord_count : (latchRecord x a).count = min 65535 (a.count + 1) := by
  unfold latchRecord satAdd
  split
  case isTrue => rfl
  case isFalse =>
    cases x with
    | none => rfl
    | some v => simp only; split <;> rfl

theorem latchRecord_first (hr : a.raised = false) :
    latchRecord x a = { a with count := min 65535 (a.count + 1), raised := true, subject := x } := by
  simp [latchRecord, satAdd, hr]

theorem latchRecord_none (hr : a.raised = true) :
    latchRecord none a = { a with count := min 65535 (a.count + 1) } := by
  simp [latchRecord, satAdd, hr]

/-- A serial that is the subject, waits already or finds four waiting is dropped. -/
theorem latchRecord_dropped (hr : a.raised = true) (hv : a.subject = some v ∨ v ∈ a.waiting ∨ 4 ≤ a.waiting.length) :
    latchRecord (some v) a = { a with count := min 65535 (a.count + 1) } := by
  simp [latchRecord, satAdd, hr, hv]

theorem latchRecord_joins (hr : a.raised = true) (hv : ¬(a.subject = some v ∨ v ∈ a.waiting ∨ 4 ≤ a.waiting.length)) :
    latchRecord (some v) a = { a with count := min 65535 (a.count + 1), waiting := a.waiting ++ [v] } := by
  simp [latchRecord, satAdd, hr, hv]

/-- A further occurrence leaves the subject of the first. -/
theorem latchRecord_subject (hr : a.raised = true) : (latchRecord x a).subject = a.subject := by
  cases x with
  | none => rw [latchRecord_none hr]
  | some v =>
    by_cases hv : a.subject = some v ∨ v ∈ a.waiting ∨ 4 ≤ a.waiting.length
    · rw [latchRecord_dropped hr hv]
    · rw [latchRecord_joins hr hv]

end

/-! ### What an offer leaves of an alarm record (R176, R188)

A loss sets the re-offer of the lost notice's kind, and each loss occurs as OUTBOX_OVERFLOW. Nothing else of the Alarm Table
changes. -/

/-- What occurrences have latched: the whole of the record but its re-offer. -/
def AlarmRecord.latched (a : AlarmRecord) : AlarmRecord := { a with reoffer := .idle }

theorem AlarmRecord.latched_eq_iff {a b : AlarmRecord} :
    a.latched = b.latched ↔
      a.raised = b.raised ∧ a.subject = b.subject ∧ a.waiting = b.waiting ∧ a.count = b.count := by
  simp [AlarmRecord.latched]

section
variable {k : AlarmKind}

/-- A lost notice changes the re-offer of its kind and no more of the Alarm Table. -/
theorem noteLost_latched (n : Notice) (s : State) : (getK k (noteLost n s)).latched = (getK k s).latched := by
  unfold noteLost
  split
  case h_1 j _ _ =>
    split
    case isTrue =>
      rw [getK_modK]
      split
      case isTrue hjk => subst hjk; rfl
      case isFalse => rfl
    case isFalse => rfl
  case h_3 => split <;> rfl
  all_goals rfl

theorem getK_overflow_of_ne (hk : k ≠ .outboxOverflow) (s : State) : getK k (overflow s) = getK k s := by
  rw [overflow, latch, getK_modK, if_neg hk.symm]

theorem offerRaw_latched (hk : k ≠ .outboxOverflow) (b : NoticeBody) (s : State) :
    (getK k (offerRaw b s)).latched = (getK k s).latched := by
  unfold offerRaw
  simp only
  split
  case isTrue => rw [getK_overflow_of_ne hk, noteLost_latched]; rfl
  case isFalse =>
    split
    case isTrue => rfl
    case isFalse =>
      split
      case h_1 => rw [getK_overflow_of_ne hk, getK_congr (usageEvicted_alarms _ _), noteLost_latched]; rfl
      case h_2 => rfl

theorem usageTaken_alarms (u : UnitNo) (s : State) : (usageTaken u s).alarms = s.alarms := rfl

theorem paceLoop_latched (hk : k ≠ .outboxOverflow) (fuel : Nat) (s : State) :
    (getK k (paceLoop fuel s)).latched = (getK k s).latched := by
  induction fuel generalizing s with
  | zero => rfl
  | succ fuel ih =>
    unfold paceLoop
    split
    case isTrue =>
      split
      case h_1 => rfl
      case h_2 =>
        split
        case isTrue => exact offerRaw_latched hk _ _
        case isFalse => rw [ih, getK_congr (usageTaken_alarms _ _), offerRaw_latched hk]
    case isFalse => rfl

theorem offerPaced_latched (hk : k ≠ .outboxOverflow) (b : NoticeBody) (s : State) :
    (getK k (offerPaced b s)).latched = (getK k s).latched := by
  unfold offerPaced
  simp only
  split
  case isTrue => rw [paceLoop_latched hk, offerRaw_latched hk]
  case isFalse => exact offerRaw_latched hk b s

theorem overflowNotice_latched (hk : k ≠ .outboxOverflow) (before s : State) :
    (getK k (overflowNotice before s)).latched = (getK k s).latched := by
  unfold overflowNotice
  split
  case isTrue => exact offerPaced_latched hk _ _
  case isFalse => rfl

/-- An offer, whatever it evicts, leaves all that a kind other than OUTBOX_OVERFLOW has latched. -/
theorem offerNotice_latched (hk : k ≠ .outboxOverflow) (b : NoticeBody) (s : State) :
    (getK k (offerNotice b s)).latched = (getK k s).latched :=
  (overflowNotice_latched hk _ _).trans (offerPaced_latched hk b s)

/-- An offer that finds room leaves the record of every kind. -/
theorem getK_offerNotice_room {b : NoticeBody} {s : State} (hb : b.cls ≠ 6) (h : OutboxRoom 1 s) :
    getK k (offerNotice b s) = getK k s :=
  getK_congr (by rw [offerNotice_room hb h]) k

end

/-! ### One occurrence (R186, R187) -/

section
variable {k : AlarmKind} {x : Option Serial} {s : State}

/-- A first raise of a kind that is not masked is the only occurrence that offers a notice. -/
theorem occur_of_first (hr : (getK k s).raised = false) (hm : masked k s = false) :
    occur k x s = offerNotice (.alarm k 1 x) (latch k x s) := by
  simp [occur, hr, hm]

theorem occur_of_masked (hm : masked k s = true) : occur k x s = latch k x s := by
  simp [occur, hm]

theorem occur_of_raised (hr : (getK k s).raised = true) : occur k x s = latch k x s := by
  simp [occur, hr]

@[simp] theorem getK_latch_same : getK k (latch k x s) = latchRecord x (getK k s) := getK_modK_same _ _ _

@[simp] theorem latch_sbp : (latch k x s).sbp = s.sbp := rfl

theorem outboxRoom_latch {n : Nat} : OutboxRoom n (latch k x s) ↔ OutboxRoom n s := Iff.rfl

/-- An alarm notice is of class 0, so that the rule for a fifth usage notice never refuses it (R175, R176). -/
theorem alarm_cls_ne_usage {n : Nat} : (NoticeBody.alarm k n x).cls ≠ 6 := by
  rw [NoticeBody.cls]
  decide

theorem occur_sbp_of_masked (hm : masked k s = true) : (occur k x s).sbp = s.sbp := by
  rw [occur_of_masked hm, latch_sbp]

theorem occur_sbp_of_raised (hr : (getK k s).raised = true) : (occur k x s).sbp = s.sbp := by
  rw [occur_of_raised hr, latch_sbp]

/-- The notice of an occurrence leaves what the occurrence latched, unless it is OUTBOX_OVERFLOW's own and is itself a loss. -/
theorem occur_latched (hk : k ≠ .outboxOverflow ∨ OutboxRoom 1 s) :
    (getK k (occur k x s)).latched = (latchRecord x (getK k s)).latched := by
  unfold occur
  split
  case isTrue =>
    rcases hk with hk | hroom
    · rw [offerNotice_latched hk, getK_latch_same]
    · rw [getK_offerNotice_room alarm_cls_ne_usage (outboxRoom_latch.mpr hroom), getK_latch_same]
  case isFalse => rw [getK_latch_same]

theorem occur_inOutbox (hr : (getK k s).raised = false) (hm : masked k s = false) (hroom : OutboxRoom 1 s) :
    InOutbox (.alarm k 1 x) (occur k x s) := by
  rw [occur_of_first hr hm]
  exact offerNotice_inOutbox alarm_cls_ne_usage (outboxRoom_latch.mpr hroom)

end

/-- Settles O49: the record after the occurrence is `latchRecord` of the record before, read off case by case. -/
theorem occurrenceLatchesItsRecord : Obligations.OccurrenceLatchesItsRecord := by
  unfold Obligations.OccurrenceLatchesItsRecord
  intro k x s hk a t
  obtain ⟨hraised, hsubject, hwaiting, hcount⟩ := AlarmRecord.latched_eq_iff.mp (occur_latched (x := x) hk)
  refine ⟨occur_raised k x s, hcount.trans latchRecord_count, fun hr => ?first, fun hr => ?further⟩
  case first =>
    rw [latchRecord_first hr] at hsubject hwaiting
    refine ⟨hsubject, hwaiting, fun hm hroom => occur_inOutbox hr hm hroom, occur_sbp_of_masked⟩
  case further =>
    refine ⟨hsubject.trans (latchRecord_subject hr), occur_sbp_of_raised hr, ?noSerial, ?serial⟩
    case noSerial =>
      rintro rfl
      rwa [latchRecord_none hr] at hwaiting
    case serial =>
      rintro v rfl
      refine ⟨fun hdrop => ?dropped, fun hsubj hwait hroom => ?joins⟩
      case dropped => rwa [latchRecord_dropped hr hdrop] at hwaiting
      case joins =>
        have hnew : ¬(a.subject = some v ∨ v ∈ a.waiting ∨ 4 ≤ a.waiting.length) := by
          simp [hsubj, hwait, hroom]
        rwa [latchRecord_joins hr hnew] at hwaiting

end Sys2Proof.Machine

/-!
SUPPORT. A reading of one table after a write to another part of the state: each is the reading before it.
-/
namespace Sys2Proof.Machine

-- One proof after another, as in the tests: side by side, the proofs of one text hold more stacks than the check's memory has room for.
set_option Elab.async false

/-! ### `getU` after writes elsewhere -/

@[simp] theorem getU_modE (v : UnitNo) (u : UnitNo) (f : EcUnit → EcUnit) (s : State) : getU v (modE u f s) = getU v s := rfl
@[simp] theorem getU_mapE (v : UnitNo) (f : EcUnit → EcUnit) (s : State) : getU v (mapE f s) = getU v s := rfl
@[simp] theorem getU_modA (v : UnitNo) (u : UnitNo) (f : Account → Account) (s : State) : getU v (modA u f s) = getU v s := rfl
@[simp] theorem getU_modK (v : UnitNo) (k : AlarmKind) (f : AlarmRecord → AlarmRecord) (s : State) : getU v (modK k f s) = getU v s := rfl
@[simp] theorem getU_modIso (v : UnitNo) (f : Isolation → Isolation) (s : State) : getU v (modIso f s) = getU v s := rfl
@[simp] theorem getU_withQueue (v : UnitNo) (q : List QueuedOrder) (s : State) : getU v (s.withQueue q) = getU v s := rfl
@[simp] theorem getU_leaveRangingQueue (v : UnitNo) (u : UnitNo) (s : State) : getU v (leaveRangingQueue u s) = getU v s := rfl

/-! ### `getE` after writes elsewhere -/

@[simp] theorem getE_setU (v : UnitNo) (u : UnitNo) (r : UnitRecord) (s : State) : getE v (setU u r s) = getE v s := rfl
@[simp] theorem getE_modU (v : UnitNo) (u : UnitNo) (f : UnitRecord → UnitRecord) (s : State) : getE v (modU u f s) = getE v s := rfl
@[simp] theorem getE_mapU (v : UnitNo) (f : UnitRecord → UnitRecord) (s : State) : getE v (mapU f s) = getE v s := rfl
@[simp] theorem getE_modA (v : UnitNo) (u : UnitNo) (f : Account → Account) (s : State) : getE v (modA u f s) = getE v s := rfl
@[simp] theorem getE_modK (v : UnitNo) (k : AlarmKind) (f : AlarmRecord → AlarmRecord) (s : State) : getE v (modK k f s) = getE v s := rfl
@[simp] theorem getE_modIso (v : UnitNo) (f : Isolation → Isolation) (s : State) : getE v (modIso f s) = getE v s := rfl
@[simp] theorem getE_withQueue (v : UnitNo) (q : List QueuedOrder) (s : State) : getE v (s.withQueue q) = getE v s := rfl

/-! ### `getA` after writes elsewhere -/

@[simp] theorem getA_setU (v : UnitNo) (u : UnitNo) (r : UnitRecord) (s : State) : getA v (setU u r s) = getA v s := rfl
@[simp] theorem getA_modU (v : UnitNo) (u : UnitNo) (f : UnitRecord → UnitRecord) (s : State) : getA v (modU u f s) = getA v s := rfl
@[simp] theorem getA_mapU (v : UnitNo) (f : UnitRecord → UnitRecord) (s : State) : getA v (mapU f s) = getA v s := rfl
@[simp] theorem getA_modE (v : UnitNo) (u : UnitNo) (f : EcUnit → EcUnit) (s : State) : getA v (modE u f s) = getA v s := rfl
@[simp] theorem getA_mapE (v : UnitNo) (f : EcUnit → EcUnit) (s : State) : getA v (mapE f s) = getA v s := rfl
@[simp] theorem getA_modK (v : UnitNo) (k : AlarmKind) (f : AlarmRecord → AlarmRecord) (s : State) : getA v (modK k f s) = getA v s := rfl
@[simp] theorem getA_modIso (v : UnitNo) (f : Isolation → Isolation) (s : State) : getA v (modIso f s) = getA v s := rfl
@[simp] theorem getA_withQueue (v : UnitNo) (q : List QueuedOrder) (s : State) : getA v (s.withQueue q) = getA v s := rfl
@[simp] theorem getA_leaveRangingQueue (v : UnitNo) (u : UnitNo) (s : State) : getA v (leaveRangingQueue u s) = getA v s := rfl

/-! ### `getK` after writes elsewhere -/

@[simp] theorem getK_setU (j : AlarmKind) (u : UnitNo) (r : UnitRecord) (s : State) : getK j (setU u r s) = getK j s := rfl
@[simp] theorem getK_modU (j : AlarmKind) (u : UnitNo) (f : UnitRecord → UnitRecord) (s : State) : getK j (modU u f s) = getK j s := rfl
@[simp] theorem getK_mapU (j : AlarmKind) (f : UnitRecord → UnitRecord) (s : State) : getK j (mapU f s) = getK j s := rfl
@[simp] theorem getK_modE (j : AlarmKind) (u : UnitNo) (f : EcUnit → EcUnit) (s : State) : getK j (modE u f s) = getK j s := rfl
@[simp] theorem getK_mapE (j : AlarmKind) (f : EcUnit → EcUnit) (s : State) : getK j (mapE f s) = getK j s := rfl
@[simp] theorem getK_modA (j : AlarmKind) (u : UnitNo) (f : Account → Account) (s : State) : getK j (modA u f s) = getK j s := rfl
@[simp] theorem getK_modIso (j : AlarmKind) (f : Isolation → Isolation) (s : State) : getK j (modIso f s) = getK j s := rfl
@[simp] theorem getK_withQueue (j : AlarmKind) (q : List QueuedOrder) (s : State) : getK j (s.withQueue q) = getK j s := rfl
@[simp] theorem getK_leaveRangingQueue (j : AlarmKind) (u : UnitNo) (s : State) : getK j (leaveRangingQueue u s) = getK j s := rfl

/-! ### `withQueue` writes the order queue alone -/

@[simp] theorem withQueue_pending (q : List QueuedOrder) (s : State) : (s.withQueue q).pending = s.pending := rfl
@[simp] theorem withQueue_held (q : List QueuedOrder) (s : State) : (s.withQueue q).held = s.held := rfl
@[simp] theorem withQueue_sc (q : List QueuedOrder) (s : State) : (s.withQueue q).sc = s.sc := rfl
@[simp] theorem withQueue_ut (q : List QueuedOrder) (s : State) : (s.withQueue q).ut = s.ut := rfl
@[simp] theorem withQueue_ec (q : List QueuedOrder) (s : State) : (s.withQueue q).ec = s.ec := rfl
@[simp] theorem withQueue_gs (q : List QueuedOrder) (s : State) : (s.withQueue q).gs = s.gs := rfl
@[simp] theorem withQueue_bm (q : List QueuedOrder) (s : State) : (s.withQueue q).bm = s.bm := rfl
@[simp] theorem withQueue_lm (q : List QueuedOrder) (s : State) : (s.withQueue q).lm = s.lm := rfl
@[simp] theorem withQueue_ucb (q : List QueuedOrder) (s : State) : (s.withQueue q).ucb = s.ucb := rfl
@[simp] theorem withQueue_dv (q : List QueuedOrder) (s : State) : (s.withQueue q).dv = s.dv := rfl
@[simp] theorem withQueue_sbp (q : List QueuedOrder) (s : State) : (s.withQueue q).sbp = s.sbp := rfl
@[simp] theorem withQueue_alarms (q : List QueuedOrder) (s : State) : (s.withQueue q).alarms = s.alarms := rfl
@[simp] theorem withQueue_pus (q : List QueuedOrder) (s : State) : (s.withQueue q).pus = s.pus := rfl
@[simp] theorem withQueue_freeIndex (q : List QueuedOrder) (s : State) : (s.withQueue q).freeIndex = s.freeIndex := rfl
@[simp] theorem withQueue_queue (q : List QueuedOrder) (s : State) : (s.withQueue q).tli.queue = q := rfl

/-! ### Leaving the ranging queue (R57, R59) -/

@[simp] theorem leaveRangingQueue_pending (u : UnitNo) (s : State) : (leaveRangingQueue u s).pending = s.pending := rfl
@[simp] theorem leaveRangingQueue_held (u : UnitNo) (s : State) : (leaveRangingQueue u s).held = s.held := rfl
@[simp] theorem leaveRangingQueue_sc (u : UnitNo) (s : State) : (leaveRangingQueue u s).sc = s.sc := rfl
@[simp] theorem leaveRangingQueue_tli (u : UnitNo) (s : State) : (leaveRangingQueue u s).tli = s.tli := rfl
@[simp] theorem leaveRangingQueue_gs (u : UnitNo) (s : State) : (leaveRangingQueue u s).gs = s.gs := rfl
@[simp] theorem leaveRangingQueue_bm (u : UnitNo) (s : State) : (leaveRangingQueue u s).bm = s.bm := rfl
@[simp] theorem leaveRangingQueue_lm (u : UnitNo) (s : State) : (leaveRangingQueue u s).lm = s.lm := rfl
@[simp] theorem leaveRangingQueue_ucb (u : UnitNo) (s : State) : (leaveRangingQueue u s).ucb = s.ucb := rfl
@[simp] theorem leaveRangingQueue_dv (u : UnitNo) (s : State) : (leaveRangingQueue u s).dv = s.dv := rfl
@[simp] theorem leaveRangingQueue_sbp (u : UnitNo) (s : State) : (leaveRangingQueue u s).sbp = s.sbp := rfl
@[simp] theorem leaveRangingQueue_alarms (u : UnitNo) (s : State) : (leaveRangingQueue u s).alarms = s.alarms := rfl
@[simp] theorem leaveRangingQueue_pus (u : UnitNo) (s : State) : (leaveRangingQueue u s).pus = s.pus := rfl
@[simp] theorem leaveRangingQueue_freeIndex (u : UnitNo) (s : State) : (leaveRangingQueue u s).freeIndex = s.freeIndex := rfl
@[simp] theorem leaveRangingQueue_rangingQueue (u : UnitNo) (s : State) :
    (leaveRangingQueue u s).ec.rangingQueue = s.ec.rangingQueue.filter (· ≠ u) := rfl
@[simp] theorem leaveRangingQueue_permits (u : UnitNo) (s : State) : (leaveRangingQueue u s).ec.permits = s.ec.permits := rfl

theorem getE_leaveRangingQueue (u v : UnitNo) (s : State) : getE v (leaveRangingQueue u s)
    = if u = v then { getE u s with attemptPending := false, assignWait := .idle } else getE v s := vector_get_set _ _ _ _

end Sys2Proof.Machine

/-!
SUPPORT. What every operation keeps of the laws of Safety.lean, said once for each operation: `Lawful s₀ s` relates the state at
the start of a command to the one its operations have reached, and each operation extends it. The step lemmas of the laws and the
statement on RETIRING are read off it.
-/
namespace Sys2Proof.Machine

set_option Elab.async false

/-! ### The laws from one state to another -/

/-- Each law of the lists, the alarms, the serials, the credits and the counters holds in `t` if it holds in `s`. -/
structure KeepsOwnLaws (s t : State) : Prop where
  queue     : QueueLaw s → QueueLaw t := by exact id
  outbox    : OutboxLaw s → OutboxLaw t := by exact id
  enrolment : EnrolmentListLaw s → EnrolmentListLaw t := by exact id
  district  : DistrictListLaw s → DistrictListLaw t := by exact id
  factor    : FactorLaw s → FactorLaw t := by exact id
  alarm     : AlarmLaw s → AlarmLaw t := by exact id
  serial    : SerialLaw s → SerialLaw t := by exact id
  credit    : CreditLaw s → CreditLaw t := by exact id
  counter   : CounterLaw s → CounterLaw t := by exact id

/-- Those laws are kept, and so are the laws of the ranging queue and of closing snapshots together. -/
structure KeepsLaws (s t : State) : Prop extends KeepsOwnLaws s t where
  pair      : RangingLaw s → ClosingLaw s → RangingLaw t ∧ ClosingLaw t := by exact And.intro

/-- The laws are kept, and no record leaves RETIRING. -/
structure Lawful (s t : State) : Prop extends KeepsLaws s t where
  retiring  : RangingLaw s → ClosingLaw s → ∀ u, (getU u s).state = .retiring → (getU u t).state = .retiring := by
    exact fun _ _ _ h => h

theorem KeepsOwnLaws.trans {s t v : State} (h : KeepsOwnLaws s t) (k : KeepsOwnLaws t v) : KeepsOwnLaws s v where
  queue := k.queue ∘ h.queue
  outbox := k.outbox ∘ h.outbox
  enrolment := k.enrolment ∘ h.enrolment
  district := k.district ∘ h.district
  factor := k.factor ∘ h.factor
  alarm := k.alarm ∘ h.alarm
  serial := k.serial ∘ h.serial
  credit := k.credit ∘ h.credit
  counter := k.counter ∘ h.counter

theorem KeepsLaws.trans {s t v : State} (h : KeepsLaws s t) (k : KeepsLaws t v) : KeepsLaws s v where
  toKeepsOwnLaws := h.toKeepsOwnLaws.trans k.toKeepsOwnLaws
  pair hr hc := k.pair (h.pair hr hc).1 (h.pair hr hc).2

theorem Lawful.refl (s : State) : Lawful s s := {}

theorem Lawful.trans {s t v : State} (h : Lawful s t) (k : Lawful t v) : Lawful s v where
  toKeepsLaws := h.toKeepsLaws.trans k.toKeepsLaws
  retiring hr hc u hu := k.retiring (h.pair hr hc).1 (h.pair hr hc).2 u (h.retiring hr hc u hu)

/-- An operation whose guard rests on the laws of the ranging queue and of closing snapshots as the command found them. -/
theorem Lawful.extend {s₀ s t : State} (h : Lawful s₀ s) (k : KeepsOwnLaws s t)
    (hk : RangingLaw s₀ → ClosingLaw s₀ → RangingLaw s → ClosingLaw s →
      (RangingLaw t ∧ ClosingLaw t) ∧ ∀ u, (getU u s).state = .retiring → (getU u t).state = .retiring) : Lawful s₀ t where
  toKeepsOwnLaws := h.toKeepsOwnLaws.trans k
  pair hr hc := (hk hr hc (h.pair hr hc).1 (h.pair hr hc).2).1
  retiring hr hc u hu := (hk hr hc (h.pair hr hc).1 (h.pair hr hc).2).2 u (h.retiring hr hc u hu)

/-- What each entry of a list keeps, the whole list keeps. -/
theorem foldl_lawful {α : Type} {s₀ : State} {f : State → α → State} {l : List α} {s : State} (h : Lawful s₀ s)
    (hf : ∀ a ∈ l, ∀ t, Lawful s₀ t → Lawful s₀ (f t a)) : Lawful s₀ (l.foldl f s) := by
  induction l generalizing s with
  | nil => exact h
  | cons a l ih =>
    exact ih (hf a List.mem_cons_self s h) (fun b hb => hf b (List.mem_cons_of_mem _ hb))

section
variable {s₀ s : State}

/-! ### Records that stay where they are -/

/-- A record keeps its serial, stays in or out of FREE, RANGING and RETIRING, does not become one that never served, and keeps its
credit within the bucket. -/
structure RecordStays (r r' : UnitRecord) : Prop where
  serial   : r'.serial = r.serial
  free     : r'.state = .free ↔ r.state = .free
  ranging  : r'.state = .ranging ↔ r.state = .ranging
  retiring : r'.state = .retiring ↔ r.state = .retiring
  fresh    : neverServed r' = true → neverServed r = true
  credit   : r.credit ≤ bmax r.profile → r'.credit ≤ bmax r'.profile

theorem RecordStays.refl (r : UnitRecord) : RecordStays r r := ⟨rfl, .rfl, .rfl, .rfl, id, id⟩

theorem RecordStays.trans {r r' r'' : UnitRecord} (h : RecordStays r r') (k : RecordStays r' r'') : RecordStays r r'' :=
  ⟨k.serial.trans h.serial, k.free.trans h.free, k.ranging.trans h.ranging, k.retiring.trans h.retiring, h.fresh ∘ k.fresh,
    k.credit ∘ h.credit⟩

/-- A change that leaves the state, the serial, returning, the credit and the profile. -/
theorem RecordStays.of_same {r r' : UnitRecord} (hstate : r'.state = r.state := by rfl) (hserial : r'.serial = r.serial := by rfl)
    (hret : r'.returning = r.returning := by rfl) (hcredit : r'.credit = r.credit := by rfl)
    (hprofile : r'.profile = r.profile := by rfl) : RecordStays r r' := by
  refine ⟨hserial, by rw [hstate], by rw [hstate], by rw [hstate], ?_, by rw [hcredit, hprofile]; exact id⟩
  unfold neverServed
  rw [hstate, hret]
  exact id

/-- Records that stay where they are keep every law of the records. -/
theorem records_lawful {t : State} (h : Lawful s₀ s) (ht : t = { s with ut := t.ut })
    (hr : ∀ v, RecordStays (getU v s) (getU v t)) : Lawful s₀ t := by
  refine h.trans ?_
  have hother : ∀ L : State → Prop, L { s with ut := t.ut } → L t := fun L hL => by rwa [ht]
  constructor
  case retiring => exact fun _ _ u hu => (hr u).retiring.mpr hu
  case toKeepsLaws =>
    refine { serial := ?serial, credit := fun hs u => (hr u).credit (hs u), pair := ?pair, queue := ?_, outbox := ?_,
             enrolment := ?_, district := ?_, factor := ?_, alarm := ?_, counter := ?_ }
    case serial =>
      rintro ⟨hfree, huniq, hbar⟩
      refine ⟨fun u hu => ?_, fun u v x hu hv => ?_, fun u x hu hx => ?_⟩
      · rw [(hr u).serial, hfree u ((hr u).free.mp hu)]
      · exact huniq u v x ((hr u).serial ▸ hu) ((hr v).serial ▸ hv)
      · have : isBarred x t = isBarred x s := by rw [ht]; rfl
        rw [this]
        exact hbar u x ((hr u).fresh hu) ((hr u).serial ▸ hx)
    case pair =>
      rintro ⟨hnodup, hmem, hpend, hends⟩ hc
      have hE : ∀ u, getE u t = getE u s := fun u => by rw [ht]; rfl
      have hA : ∀ u, getA u t = getA u s := fun u => by rw [ht]; rfl
      have hq : t.ec.rangingQueue = s.ec.rangingQueue := by rw [ht]
      have hsc : t.sc = s.sc := by rw [ht]
      refine ⟨⟨hq ▸ hnodup, fun u => ?_, fun u hu => ?_, fun he => ?_⟩, fun u p hp hfin => ?_⟩
      · rw [hq, hmem, (hr u).ranging]
      · exact (hr u).ranging.mpr (hpend u (hE u ▸ hu))
      · rw [hsc] at he ⊢
        exact ⟨(hends he).1, fun u => (hr u).free.mpr ((hends he).2 u)⟩
      · exact (hr u).retiring.mpr (hc u p (hA u ▸ hp) hfin)
    all_goals exact fun hL => hother _ hL

theorem setU_lawful {u : UnitNo} {r : UnitRecord} (h : Lawful s₀ s) (hr : RecordStays (getU u s) r) : Lawful s₀ (setU u r s) := by
  refine records_lawful h rfl fun v => ?_
  rw [getU_setU]
  split
  case isTrue huv => exact huv ▸ hr
  case isFalse => exact .refl _

theorem modU_lawful {u : UnitNo} {f : UnitRecord → UnitRecord} (h : Lawful s₀ s)
    (hf : RecordStays (getU u s) (f (getU u s)) := by exact .of_same) : Lawful s₀ (modU u f s) := setU_lawful h hf

theorem mapU_lawful {f : UnitRecord → UnitRecord} (h : Lawful s₀ s) (hf : ∀ r, RecordStays r (f r)) : Lawful s₀ (mapU f s) :=
  records_lawful h rfl fun v => by rw [getU_mapU]; exact hf _

/-! ### The EC's own state -/

/-- A change of what the EC holds beside the records that sets no attempt pending. -/
theorem modE_lawful {u : UnitNo} {f : EcUnit → EcUnit} (h : Lawful s₀ s)
    (hf : (f (getE u s)).attemptPending = true → (getE u s).attemptPending = true := by exact id) : Lawful s₀ (modE u f s) := by
  refine h.trans { pair := ?_ }
  rintro ⟨hnodup, hmem, hpend, hends⟩ hc
  refine ⟨⟨hnodup, hmem, fun v hv => ?_, hends⟩, hc⟩
  rw [getE_modE] at hv
  split at hv
  case isTrue huv => exact huv ▸ hpend u (hf hv)
  case isFalse => exact hpend v hv

/-! ### The order queue -/

theorem withQueue_lawful {q : List QueuedOrder} (h : Lawful s₀ s) (hq : QueueLaw s → QueueLaw (s.withQueue q)) :
    Lawful s₀ (s.withQueue q) := h.trans { queue := hq }

theorem sublistQueue_lawful {q : List QueuedOrder} (h : Lawful s₀ s) (hq : q.Sublist s.tli.queue) :
    Lawful s₀ (s.withQueue q) :=
  withQueue_lawful h fun ⟨hlen, hgroups⟩ => ⟨Nat.le_trans hq.length_le hlen, hgroups.sublist hq⟩

theorem offerOrder_lawful {p : Producer} {o : PuOrder} (h : Lawful s₀ s) : Lawful s₀ (offerOrder p o s) := by
  rcases offerOrder_cases p o s with ⟨hroom, he⟩ | ⟨-, he⟩ <;> rw [he]
  · refine withQueue_lawful (q := enqueue _ _) h fun ⟨_, hgroups⟩ => ⟨?_, enqueue_inGroups hgroups⟩
    simp only [State.withQueue, enqueue_length]
    omega
  · exact h

theorem enqueueAll_lawful {l : List QueuedOrder} (h : Lawful s₀ s) (hl : queueHasRoom l.length s = true) :
    Lawful s₀ (enqueueAll l s) := by
  refine h.trans { queue := fun ⟨_, hgroups⟩ => ⟨?_, enqueueAll_inGroups hgroups⟩ }
  rw [enqueueAll_length]
  exact (queueHasRoom_iff _ _).mp hl

theorem withdrawOrders_lawful {p : Producer} {w : PuOrder → Bool} (h : Lawful s₀ s) : Lawful s₀ (withdrawOrders p w s).1 :=
  sublistQueue_lawful h List.filter_sublist

theorem offerAssign_lawful {u : UnitNo} (h : Lawful s₀ s) : Lawful s₀ (offerAssign u s) := by
  unfold offerAssign
  split
  · split
    · exact modE_lawful (offerOrder_lawful h)
    · exact modE_lawful h
  · exact h

theorem offerDrop_lawful {p : Producer} {u : UnitNo} (h : Lawful s₀ s) : Lawful s₀ (offerDrop p u s) := by
  unfold offerDrop
  split
  · exact modU_lawful (offerOrder_lawful h)
  · exact modU_lawful h

theorem offerEqd_lawful {u : UnitNo} {q : Nat} (h : Lawful s₀ s) : Lawful s₀ (offerEqd u q s) := by
  unfold offerEqd
  split
  · exact modU_lawful (offerOrder_lawful h)
  · exact h

end

end Sys2Proof.Machine

/-!
SUPPORT. What the operations on reports and on the search keep of the laws: the outbox, the alarm records, pacing, and the isolation
machine's offers.
-/
namespace Sys2Proof.Machine

set_option Elab.async false

section
variable {s₀ s : State}

/-! ### Accounts -/

/-- The counter sets of an account keep their order (R135). -/
def AccountCounts (a : Account) : Prop :=
  CounterSetLaw a.live ∧ ∀ p, a.snapshot = some p → CounterSetLaw p.counters

/-- The account's snapshot is final or waits for a close (R140). -/
def AccountCloses (a : Account) : Prop := ∃ p, a.snapshot = some p ∧ (p.isFinal = true ∨ p.closePending = true)

/-- A change of one account keeps the laws when it keeps the order of the counters, and makes a snapshot final, or has it wait for a
close, on a RETIRING record alone. -/
theorem modA_lawful {u : UnitNo} {f : Account → Account} (h : Lawful s₀ s)
    (hcounts : AccountCounts (getA u s) → AccountCounts (f (getA u s)))
    (hcloses : RangingLaw s₀ → ClosingLaw s₀ → AccountCloses (f (getA u s)) →
      AccountCloses (getA u s) ∨ (getU u s).state = .retiring) :
    Lawful s₀ (modA u f s) := by
  refine h.extend { counter := fun hs v => ?_ } fun hr₀ hc₀ hr hc => ⟨⟨hr, fun v p hp hfin => ?_⟩, fun _ hu => hu⟩
  · rw [getA_modA]
    split
    case isTrue => exact hcounts (hs u)
    case isFalse => exact hs v
  · rw [getA_modA] at hp
    split at hp
    case isTrue huv =>
      subst huv
      rcases hcloses hr₀ hc₀ ⟨p, hp, hfin⟩ with ⟨q, hq, hqfin⟩ | hst
      · exact hc u q hq hqfin
      · exact hst
    case isFalse => exact hc v p hp hfin

/-- A change of where a snapshot stands with the shelf bus keeps the laws. -/
theorem moveSnapshot_lawful {u : UnitNo} {g : Snapshot → Snapshot} (h : Lawful s₀ s) (hg : ∀ p, (g p).contents = p.contents) :
    Lawful s₀ (modA u (fun a => { a with snapshot := a.snapshot.map g }) s) := by
  have hsame : ∀ p, (g p).counters = p.counters ∧ (g p).isFinal = p.isFinal ∧ (g p).closePending = p.closePending := by
    intro p
    have := hg p
    simp only [Snapshot.contents, Snapshot.mk.injEq] at this
    obtain ⟨hc, -, hf, -, -, hp⟩ := this
    exact ⟨hc, hf, hp⟩
  refine modA_lawful h (fun ⟨hlive, hsnap⟩ => ⟨hlive, fun q hq => ?_⟩) (fun _ _ ⟨q, hq, hfin⟩ => .inl ?_)
  · obtain ⟨p, hp, rfl⟩ := Option.map_eq_some_iff.mp hq
    rw [(hsame p).1]
    exact hsnap p hp
  · obtain ⟨p, hp, rfl⟩ := Option.map_eq_some_iff.mp hq
    exact ⟨p, hp, by rwa [(hsame p).2.1, (hsame p).2.2] at hfin⟩

/-! ### Alarm records -/

theorem modK_lawful {k : AlarmKind} {f : AlarmRecord → AlarmRecord} (h : Lawful s₀ s)
    (hf : AlarmRecordLaw (getK k s) → AlarmRecordLaw (f (getK k s))) : Lawful s₀ (modK k f s) := by
  refine h.trans { alarm := fun hs j => ?_ }
  rw [getK_modK]
  split
  case isTrue hjk => exact hf (hs k)
  case isFalse => exact hs j

/-- An occurrence keeps the law of the record it reaches (R185, R186). -/
theorem latchRecord_law {x : Option Serial} {a : AlarmRecord} (ha : AlarmRecordLaw a) : AlarmRecordLaw (latchRecord x a) := by
  obtain ⟨hlen, hnodup, hsubj, hclear⟩ := ha
  cases hr : a.raised
  · obtain ⟨hs, hw⟩ := hclear hr
    rw [latchRecord_first hr]
    simp [AlarmRecordLaw, hw]
  · cases x with
    | none =>
      rw [latchRecord_none hr]
      exact ⟨hlen, hnodup, hsubj, fun h => by simp [hr] at h⟩
    | some v =>
      by_cases hv : a.subject = some v ∨ v ∈ a.waiting ∨ 4 ≤ a.waiting.length
      · rw [latchRecord_dropped hr hv]
        exact ⟨hlen, hnodup, hsubj, fun h => by simp [hr] at h⟩
      · rw [latchRecord_joins hr hv]
        simp only [not_or, not_le] at hv
        obtain ⟨hne, hmem, hroom⟩ := hv
        refine ⟨by simp; omega, ?_, ?_, fun h => by simp [hr] at h⟩
        · exact List.nodup_append.mpr ⟨hnodup, by simp, by rintro y hy z hz rfl; simp_all⟩
        · simp only [List.mem_append, List.mem_singleton]
          rintro y (hy | rfl)
          · exact hsubj y hy
          · exact hne

theorem latch_lawful {k : AlarmKind} {x : Option Serial} (h : Lawful s₀ s) : Lawful s₀ (latch k x s) :=
  modK_lawful h latchRecord_law

theorem overflow_lawful (h : Lawful s₀ s) : Lawful s₀ (overflow s) := latch_lawful h

/-! ### The outbox -/

theorem noteLost_lawful {n : Notice} (h : Lawful s₀ s) : Lawful s₀ (noteLost n s) := by
  unfold noteLost
  split
  · split
    · exact modK_lawful h id
    · exact h
  · exact h
  · split
    · exact h
    · exact h.trans {}
  · exact h.trans {}
  · exact h
  · exact h
  · exact h.trans {}

theorem usageEvicted_lawful {n : Notice} (h : Lawful s₀ s) : Lawful s₀ (usageEvicted n s) := by
  unfold usageEvicted
  split
  · exact moveSnapshot_lawful (h.trans {}) (Snapshot.move_contents _ _)
  · exact h.trans {}
  · exact h

/-- How many usage notices stand in the outbox after a join (R175). -/
theorem usageHeld_insertNotice (n : Notice) (box : List Notice) :
    usageHeld (insertNotice n box) = usageHeld box + (if n.body.cls = 6 then 1 else 0) := by
  unfold usageHeld
  rw [((insertNotice_perm n box).filter _).length_eq, List.filter_cons]
  by_cases hn : n.body.cls = 6 <;> simp [hn]

theorem usageHeld_le_of_sublist {box box' : List Notice} (h : box'.Sublist box) : usageHeld box' ≤ usageHeld box :=
  (h.filter _).length_le

/-- A notice that the outbox does not refuse keeps the outbox's law where it joins (R175, R176). -/
theorem outboxLaw_insert {n : Notice} {box : List Notice} {s t : State} (hs : OutboxLaw s) (hbox : box.Sublist s.sbp.outbox)
    (hlen : box.length < 32) (husage : n.body.cls = 6 → usageHeld box < 4) (ht : t.sbp.outbox = insertNotice n box) :
    OutboxLaw t := by
  obtain ⟨-, hheld, hsorted⟩ := hs
  refine ⟨by rw [ht, insertNotice_length]; omega, ?_, by rw [ht]; exact insertNotice_sorted (hsorted.sublist hbox)⟩
  have := usageHeld_le_of_sublist hbox
  rw [ht, usageHeld_insertNotice]
  split
  case isTrue hn => exact husage hn
  case isFalse => omega

theorem outboxLaw_sublist {s t : State} (h : t.sbp.outbox.Sublist s.sbp.outbox) (hs : OutboxLaw s) : OutboxLaw t :=
  ⟨Nat.le_trans h.length_le hs.1, Nat.le_trans (usageHeld_le_of_sublist h) hs.2.1, hs.2.2.sublist h⟩

theorem outbox_lawful {l : List Notice} {k : Nat} (h : Lawful s₀ s)
    (hl : OutboxLaw s → OutboxLaw { s with sbp := { s.sbp with outbox := l, nextRef := k } }) :
    Lawful s₀ { s with sbp := { s.sbp with outbox := l, nextRef := k } } := h.trans { outbox := hl }

theorem offerRaw_lawful {b : NoticeBody} (h : Lawful s₀ s) : Lawful s₀ (offerRaw b s) := by
  have husage : outboxRefuses b s = false → b.cls = 6 → usageHeld (outboxFor b s) < 4 := by
    intro hr hb
    simp only [outboxRefuses, hb, Bool.or_eq_false_iff, Bool.and_eq_false_iff] at hr
    simpa using hr.1
  have hbox := outboxFor_sublist b s
  unfold offerRaw
  simp only
  split
  · exact overflow_lawful (noteLost_lawful (outbox_lawful h (outboxLaw_sublist hbox)))
  next hr =>
  have hr := Bool.eq_false_iff.mpr hr
  split
  next hlen =>
    exact outbox_lawful h fun hs => outboxLaw_insert hs hbox hlen (husage hr) rfl
  next hfull =>
  split
  · refine overflow_lawful (usageEvicted_lawful (noteLost_lawful (outbox_lawful h fun hs => ?_)))
    have hsub : (outboxFor b s).dropLast.Sublist (outboxFor b s) := List.dropLast_sublist _
    refine outboxLaw_insert hs (hsub.trans hbox) ?_ (fun hb => ?_) rfl
    · have := hs.1
      have := hbox.length_le
      rw [List.length_dropLast]
      omega
    · exact Nat.lt_of_le_of_lt (usageHeld_le_of_sublist hsub) (husage hr hb)
  · exact outbox_lawful h (outboxLaw_sublist hbox)

/-! ### Pacing, offers and occurrences -/

theorem usageTaken_lawful {u : UnitNo} (h : Lawful s₀ s) : Lawful s₀ (usageTaken u s) :=
  moveSnapshot_lawful (h.trans {}) (Snapshot.move_contents _ _)

theorem paceLoop_lawful {fuel : Nat} (h : Lawful s₀ s) : Lawful s₀ (paceLoop fuel s) := by
  induction fuel generalizing s with
  | zero => exact h
  | succ fuel ih =>
    unfold paceLoop
    split
    · split
      · exact h
      · split
        · exact offerRaw_lawful h
        · exact ih (usageTaken_lawful (offerRaw_lawful h))
    · exact h

theorem offerPaced_lawful {b : NoticeBody} (h : Lawful s₀ s) : Lawful s₀ (offerPaced b s) := by
  unfold offerPaced
  simp only
  split
  · exact paceLoop_lawful (offerRaw_lawful h)
  · exact offerRaw_lawful h

theorem overflowNotice_lawful {a : State} (h : Lawful s₀ s) : Lawful s₀ (overflowNotice a s) := by
  unfold overflowNotice
  split
  · exact offerPaced_lawful h
  · exact h

theorem offerNotice_lawful {b : NoticeBody} (h : Lawful s₀ s) : Lawful s₀ (offerNotice b s) :=
  overflowNotice_lawful (offerPaced_lawful h)

theorem pace_lawful (h : Lawful s₀ s) : Lawful s₀ (pace s) := overflowNotice_lawful (paceLoop_lawful h)

theorem occur_lawful {k : AlarmKind} {x : Option Serial} (h : Lawful s₀ s) : Lawful s₀ (occur k x s) := by
  unfold occur
  split
  · exact offerNotice_lawful (latch_lawful h)
  · exact latch_lawful h

theorem queueHeld_lawful {u : UnitNo} (h : Lawful s₀ s) : Lawful s₀ (queueHeld u s) := by
  unfold queueHeld
  split
  · exact h
  · simp only
    split
    · exact offerNotice_lawful h
    · refine modU_lawful (offerNotice_lawful h) ?_
      split
      · exact .of_same
      · exact .refl _

theorem queueClaiming_lawful {u : UnitNo} (h : Lawful s₀ s) : Lawful s₀ (queueClaiming u s) := by
  unfold queueClaiming
  split
  · exact h
  · exact offerNotice_lawful (modE_lawful h)

theorem queueReleased_lawful {u : UnitNo} {x : Serial} {l : Nat} (h : Lawful s₀ s) : Lawful s₀ (queueReleased u x l s) :=
  offerNotice_lawful h

/-! ### The isolation machine -/

theorem modIso_lawful {f : Isolation → Isolation} (h : Lawful s₀ s) : Lawful s₀ (modIso f s) := h.trans {}

theorem hushAll_lawful {b : Bool} {l : List UnitNo} (h : Lawful s₀ s) :
    Lawful s₀ (l.foldl (fun t u => modU u (fun r => { r with hush := b }) t) s) :=
  foldl_lawful h fun _ _ _ ht => modU_lawful ht

theorem stepTaken_lawful {k : StepKind} (h : Lawful s₀ s) : Lawful s₀ (stepTaken k s) := by
  unfold stepTaken
  split
  · refine modIso_lawful (mapU_lawful h fun r => ?_)
    split
    · exact .of_same
    · exact .refl _
  · exact hushAll_lawful h
  · exact h

theorem offerStep_lawful {k : StepKind} (h : Lawful s₀ s) : Lawful s₀ (offerStep k s) := by
  unfold offerStep
  simp only
  split
  · exact modIso_lawful h
  split
  next hroom => exact modIso_lawful (stepTaken_lawful (enqueueAll_lawful h (by rwa [markedOffer_length])))
  next => exact modIso_lawful h

theorem stepCarried_lawful {k : Nat} (h : Lawful s₀ s) : Lawful s₀ (stepCarried k s) := by
  unfold stepCarried
  split
  · exact modIso_lawful h
  · exact h

theorem restepAfter_lawful (h : Lawful s₀ s) : Lawful s₀ (restepAfter s) := by
  unfold restepAfter
  split
  · exact offerStep_lawful (modIso_lawful h)
  · exact h

theorem offerClosings_lawful {l : List ClosingOffer} (h : Lawful s₀ s) : Lawful s₀ (offerClosings l s) := by
  induction l generalizing s with
  | nil => exact modIso_lawful h
  | cons o l ih =>
    unfold offerClosings
    split
    next hroom => exact ih (modIso_lawful (enqueueAll_lawful h (by rwa [markedOffer_length])))
    next => exact modIso_lawful h

theorem addClosings_lawful {l : List ClosingOffer} (h : Lawful s₀ s) : Lawful s₀ (addClosings l s) := by
  unfold addClosings
  split
  · exact h
  split
  · exact offerClosings_lawful (modIso_lawful h)
  · exact modIso_lawful h

theorem closingCarried_lawful {k : Nat} {c : ClearSet} (h : Lawful s₀ s) : Lawful s₀ (closingCarried k c s) := by
  unfold closingCarried
  split
  · exact h
  · exact modIso_lawful h

theorem clearHush_lawful {c : ClearSet} (h : Lawful s₀ s) : Lawful s₀ (clearHush c s) := by
  unfold clearHush
  split
  · exact h
  · exact mapU_lawful h fun _ => .of_same
  · exact hushAll_lawful h

theorem verdictUnlocated_lawful (h : Lawful s₀ s) : Lawful s₀ (verdictUnlocated s) :=
  addClosings_lawful (occur_lawful (modIso_lawful h))

theorem verdictUnenrolled_lawful (h : Lawful s₀ s) : Lawful s₀ (verdictUnenrolled s) := by
  refine addClosings_lawful (mapU_lawful (occur_lawful (modIso_lawful h)) fun r => ?_)
  split
  · exact .refl _
  · exact .of_same

theorem isoRemove_lawful {u : UnitNo} (h : Lawful s₀ s) : Lawful s₀ (isoRemove u s) := by
  unfold isoRemove
  split
  · exact h
  · exact h
  · exact modIso_lawful h
  · simp only
    split
    · exact verdictUnlocated_lawful (modIso_lawful h)
    split
    · exact modIso_lawful h
    split
    · exact modIso_lawful (modIso_lawful (modIso_lawful h))
    · exact offerStep_lawful (modIso_lawful (modIso_lawful h))

end

end Sys2Proof.Machine

/-!
SUPPORT. What the Usage Counter Bank and the Unit Table keep of the laws: attributions and merges (R137, R148), takes, entries to
RANGING, retirements and freeings (R35 to R37, R58).
-/
namespace Sys2Proof.Machine

set_option Elab.async false

/-! ### Counter sets (R135, R139, R148) -/

theorem list_sum_set_add (l : List Nat) (i x : Nat) (hi : i < l.length) : (l.set i x).sum + l[i] = l.sum + x := by
  induction l generalizing i with
  | nil => simp at hi
  | cons a l ih =>
    cases i with
    | zero => simp only [List.set_cons_zero, List.sum_cons, List.getElem_cons_zero]; omega
    | succ i =>
      have := ih i (by simpa using hi)
      simp only [List.set_cons_succ, List.sum_cons, List.getElem_cons_succ]
      omega

/-- The sum of a table after a write of one entry. -/
theorem vector_sum_set_add {n : Nat} (v : Vector Nat n) (i : Fin n) (x : Nat) :
    (v.set i x).toList.sum + v.get i = v.toList.sum + x := by
  have := list_sum_set_add v.toList i x (by simp)
  simpa [Vector.get_eq_getElem, Vector.toList_set] using this

theorem zipWith_sum_add (f : Nat → Nat → Nat) (a b : List Nat) (hlen : a.length = b.length)
    (h : ∀ i (ha : i < a.length) (hb : i < b.length), f a[i] b[i] = a[i] + b[i]) :
    (List.zipWith f a b).sum = a.sum + b.sum := by
  induction a generalizing b with
  | nil => cases b with
    | nil => rfl
    | cons => simp at hlen
  | cons x a ih =>
    cases b with
    | nil => simp at hlen
    | cons y b =>
      have h0 := h 0 (by simp) (by simp)
      have := ih b (by simpa using hlen) (fun i ha hb => h (i + 1) (Nat.succ_lt_succ ha) (Nat.succ_lt_succ hb))
      simp only [List.getElem_cons_zero] at h0
      simp only [List.zipWith_cons_cons, List.sum_cons, this, h0]
      omega

theorem addCount_of_fits {n k : Nat} (h : overCount n k = false) : addCount n k = n + k := by
  simp only [overCount, decide_eq_false_iff_not] at h
  simp only [addCount, satAdd]
  omega

/-- An attribution that saturates nothing keeps the order of the counters (R137). -/
theorem attributeUp_law {b : Band} {d x y : Nat} {c : CounterSet} (hx : x ≤ d) (hy : y ≤ x) (hc : CounterSetLaw c) :
    CounterSetLaw (attributeUp b d x y c) := by
  intro hsat
  simp only [attributeUp, Bool.or_eq_false_iff] at hsat ⊢
  obtain ⟨⟨⟨hs, hu⟩, he⟩, hb⟩ := hsat
  obtain ⟨hbe, heu⟩ := hc hs
  rw [addCount_of_fits hu, addCount_of_fits he, addCount_of_fits hb]
  have := vector_sum_set_add c.up b (c.up.get b + d)
  omega

theorem attributeDown_law {b : Band} {d : Nat} {c : CounterSet} (hc : CounterSetLaw c) :
    CounterSetLaw (attributeDown b d c) := by
  intro hsat
  simp only [attributeDown, Bool.or_eq_false_iff] at hsat ⊢
  exact hc hsat.1

theorem counterZero_law : CounterSetLaw CounterSet.zero := by
  intro _
  simp [CounterSet.zero]

/-- A merge that saturates nothing keeps the order of the counters (R148). -/
theorem mergeSets_law {a c : CounterSet} (ha : CounterSetLaw a) (hc : CounterSetLaw c) : CounterSetLaw (mergeSets a c) := by
  intro hsat
  simp only [mergeSets, Bool.or_eq_false_iff] at hsat ⊢
  obtain ⟨⟨⟨⟨⟨hsa, hsc⟩, hup⟩, -⟩, he⟩, hb⟩ := hsat
  obtain ⟨ha1, ha2⟩ := ha hsa
  obtain ⟨hc1, hc2⟩ := hc hsc
  rw [addCount_of_fits he, addCount_of_fits hb]
  have hsum : (vzip addCount a.up c.up).toList.sum = a.up.toList.sum + c.up.toList.sum := by
    refine zipWith_sum_add _ _ _ (by simp) fun i hi hi' => addCount_of_fits ?_
    have hno : ¬ ∃ j : Fin 4, (vzip overCount a.up c.up).get j = true := by
      rw [← any_toList_iff, hup]
      simp
    simp only [vzip_get, not_exists, Bool.not_eq_true] at hno
    have := hno ⟨i, by simpa using hi⟩
    simpa [Vector.get_eq_getElem] using this
  omega

theorem accountBlank_counts : AccountCounts Account.blank := ⟨counterZero_law, fun _ h => by simp [Account.blank] at h⟩

section
variable {s₀ s : State}

/-! ### The Usage Counter Bank -/

theorem saturation_lawful {u : UnitNo} {a b : Bool} (h : Lawful s₀ s) : Lawful s₀ (saturation u a b s) := by
  unfold saturation
  split
  · exact occur_lawful h
  · exact h

theorem countBytes_lawful {u : UnitNo} {f : CounterSet → CounterSet} (h : Lawful s₀ s)
    (hf : ∀ c, CounterSetLaw c → CounterSetLaw (f c)) : Lawful s₀ (countBytes u f s) :=
  saturation_lawful (modA_lawful h (fun ⟨hlive, hsnap⟩ => ⟨hf _ hlive, hsnap⟩) (fun _ _ hcl => .inl hcl))

theorem attributeBurst_lawful {u : UnitNo} {d pc : Nat} {busy : Bool} (h : Lawful s₀ s) :
    Lawful s₀ (attributeBurst u d pc busy s) := by
  unfold attributeBurst
  split
  · exact h
  · refine countBytes_lawful h fun c => attributeUp_law (Nat.sub_le _ _) ?_
    split
    · exact Nat.le_refl _
    · exact Nat.zero_le _

theorem makeFinal_lawful {u : UnitNo} (h : Lawful s₀ s)
    (hu : RangingLaw s₀ → ClosingLaw s₀ → (getU u s).state = .retiring) : Lawful s₀ (makeFinal u s) := by
  refine modA_lawful h (fun ⟨hlive, _⟩ => ⟨counterZero_law, fun p hp => ?_⟩) (fun hr hc _ => .inr (hu hr hc))
  obtain rfl := Option.some.inj hp
  exact hlive

theorem mergeFinal_lawful {u : UnitNo} {p : Snapshot} {st : NoticeState} (h : Lawful s₀ s) (hp : (getA u s).snapshot = some p)
    (hu : AccountCloses (getA u s) ∨ (getU u s).state = .retiring) : Lawful s₀ (mergeFinal u p st s) := by
  refine saturation_lawful (modA_lawful h (fun ⟨hlive, hsnap⟩ => ⟨counterZero_law, fun q hq => ?_⟩) (fun _ _ _ => hu))
  obtain rfl := Option.some.inj hq
  exact mergeSets_law (hsnap p hp) hlive

theorem closeBilling_lawful {u : UnitNo} (h : Lawful s₀ s) (hu : (getU u s).state = .retiring) :
    Lawful s₀ (closeBilling u s) := by
  unfold closeBilling
  split
  · exact pace_lawful (makeFinal_lawful h fun _ _ => hu)
  next p hp =>
    split
    · refine modA_lawful h (fun ⟨hlive, hsnap⟩ => ⟨hlive, fun q hq => ?_⟩) (fun _ _ _ => .inr hu)
      obtain rfl := Option.some.inj hq
      exact hsnap p hp
    · exact pace_lawful (mergeFinal_lawful h hp (.inr hu))

theorem takeUnit_lawful {u : UnitNo} (h : Lawful s₀ s) : Lawful s₀ (takeUnit u s) := by
  unfold takeUnit
  split
  · refine modA_lawful h (fun ⟨hlive, _⟩ => ⟨counterZero_law, fun p hp => ?_⟩) (fun _ _ ⟨p, hp, hfin⟩ => ?_)
    · obtain rfl := Option.some.inj hp
      exact hlive
    · obtain rfl := Option.some.inj hp
      simp at hfin
  · exact h

theorem takeAll_lawful (h : Lawful s₀ s) : Lawful s₀ (takeAll s) :=
  pace_lawful (foldl_lawful h fun _ _ _ ht => takeUnit_lawful ht)

theorem oneOutLess_lawful (h : Lawful s₀ s) : Lawful s₀ (oneOutLess s) := h.trans {}

theorem usageMatch_snapshot {b : UsageBody} {p : Snapshot} (h : usageMatch b s = some p) :
    (getA b.unit s).snapshot = some p ∧ p.notice = .onLine ∧ (getU b.unit s).serial = some b.serial ∧ p.takeNo = b.takeNo := by
  unfold usageMatch at h
  split at h
  next q hq =>
    split at h
    next hm =>
      obtain rfl := Option.some.inj h
      exact ⟨hq, hm⟩
    next => simp at h
  next => simp at h

theorem usageAborted_lawful {b : UsageBody} (h : Lawful s₀ s) : Lawful s₀ (usageAborted b s) := by
  have h1 := oneOutLess_lawful h
  unfold usageAborted
  simp only
  split
  · exact pace_lawful h1
  next p hp =>
    obtain ⟨hsnap, -⟩ := usageMatch_snapshot hp
    split
    next hclose => exact pace_lawful (mergeFinal_lawful h1 hsnap (.inl ⟨p, hsnap, .inr hclose⟩))
    next =>
      refine pace_lawful (modA_lawful h1 (fun ⟨hlive, hs⟩ => ⟨hlive, fun q hq => ?_⟩) (fun _ _ ⟨q, hq, hfin⟩ => .inl ?_))
      · obtain rfl := Option.some.inj hq
        exact hs p hsnap
      · obtain rfl := Option.some.inj hq
        exact ⟨p, hsnap, hfin⟩

/-! ### Records that move -/

/-- The ranging queue without the unit keeps its law once the record is out of RANGING. -/
theorem RangingLaw.leave {t : State} {u : UnitNo} (hs : RangingLaw s)
    (hq : t.ec.rangingQueue = s.ec.rangingQueue.filter (· ≠ u)) (hu : (getU u t).state ≠ .ranging)
    (hothers : ∀ v, v ≠ u → (getU v t).state = (getU v s).state)
    (hpend : ∀ v, (getE v t).attemptPending = true → v ≠ u ∧ (getE v s).attemptPending = true)
    (hsc : t.sc.restartEnds = s.sc.restartEnds ∧ t.sc.phase = s.sc.phase)
    (hfree : s.sc.restartEnds = true → (getU u t).state = .free) : RangingLaw t := by
  obtain ⟨hnodup, hmem, hp, hends⟩ := hs
  refine ⟨hq ▸ hnodup.filter _, fun v => ?_, fun v hv => ?_, fun he => ?_⟩
  · simp only [hq, List.mem_filter, decide_eq_true_eq, hmem]
    by_cases hvu : v = u
    · subst hvu; simp [hu]
    · simp [hvu, hothers v hvu]
  · obtain ⟨hvu, hv⟩ := hpend v hv
    rw [hothers v hvu]
    exact hp v hv
  · rw [hsc.1] at he
    refine ⟨hsc.2 ▸ (hends he).1, fun v => ?_⟩
    by_cases hvu : v = u
    · exact hvu ▸ hfree he
    · rw [hothers v hvu]
      exact (hends he).2 v

/-- The record leaves the ranging queue, and its state becomes another than RANGING and FREE. -/
theorem leave_lawful {u : UnitNo} {f : UnitRecord → UnitRecord} (h : Lawful s₀ s)
    (hserial : (f (getU u s)).serial = (getU u s).serial) (hfree : (f (getU u s)).state ≠ .free)
    (hranging : (f (getU u s)).state ≠ .ranging) (hfresh : neverServed (f (getU u s)) = false)
    (hcredit : (getU u s).credit ≤ bmax (getU u s).profile → (f (getU u s)).credit ≤ bmax (f (getU u s)).profile)
    (hpair : RangingLaw s₀ → ClosingLaw s₀ → RangingLaw s →
      (getU u s).state ≠ .free ∧ ((getU u s).state = .retiring → (f (getU u s)).state = .retiring)) :
    Lawful s₀ (modU u f (leaveRangingQueue u s)) := by
  have hU : ∀ v, getU v (modU u f (leaveRangingQueue u s)) = if u = v then f (getU u s) else getU v s :=
    fun v => getU_modU _ _ _ _
  have hE : ∀ v, getE v (modU u f (leaveRangingQueue u s))
      = if u = v then { getE u s with attemptPending := false, assignWait := .idle } else getE v s := fun v => getE_leaveRangingQueue u v s
  refine h.extend { serial := ?_, credit := fun hs v => ?_ } fun hr₀ hc₀ hr hc => ⟨⟨?_, fun v p hp hfin => ?_⟩, fun v hv => ?_⟩
  · rintro ⟨hs1, hs2, hs3⟩
    refine ⟨fun v hv => ?_, fun v w x hv hw => ?_, fun v x hv hx => ?_⟩
    · rw [hU] at hv ⊢
      split at hv
      next => exact absurd hv hfree
      next hvu => rw [if_neg hvu]; exact hs1 v hv
    · have key : ∀ z, (getU z (modU u f (leaveRangingQueue u s))).serial = (getU z s).serial := by
        intro z
        rw [hU]
        split
        next huz => rw [hserial, huz]
        next => rfl
      exact hs2 v w x (key v ▸ hv) (key w ▸ hw)
    · rw [hU] at hv hx
      split at hv
      next => rw [hfresh] at hv; simp at hv
      next hvu => rw [if_neg hvu] at hx; exact hs3 v x hv hx
  · rw [hU]
    split
    next => exact hcredit (hs u)
    next => exact hs v
  · obtain ⟨hnf, -⟩ := hpair hr₀ hc₀ hr
    refine hr.leave rfl (by rwa [hU, if_pos rfl]) (fun v hv => by rw [hU, if_neg (Ne.symm hv)]) (fun v hv => ?_) ⟨rfl, rfl⟩
      (fun he => absurd ((hr.2.2.2 he).2 u) hnf)
    rw [hE] at hv
    split at hv
    next => simp at hv
    next hvu => exact ⟨Ne.symm hvu, hv⟩
  · rw [hU]
    split
    next huv => subst huv; exact (hpair hr₀ hc₀ hr).2 (hc u p hp hfin)
    next => exact hc v p hp hfin
  · rw [hU]
    split
    next huv => subst huv; exact (hpair hr₀ hc₀ hr).2 hv
    next => exact hv

theorem getE_enterRanging (u v : UnitNo) (b : Bool) (q : Option Nat) (s : State) : getE v (enterRanging u b q s)
    = if u = v then { getE u s with attemptPending := false, measurement := none } else getE v s := vector_get_set _ _ _ _

/-- Entry to RANGING (R58) of a record that is neither FREE nor RETIRING; returning may be clear for one that never served. -/
theorem enterRanging_lawful {u : UnitNo} {b : Bool} {q : Option Nat} (h : Lawful s₀ s)
    (hfresh : b = false → neverServed (getU u s) = true) (hfree : (getU u s).state ≠ .free)
    (hret : (getU u s).state ≠ .retiring) : Lawful s₀ (enterRanging u b q s) := by
  have hU : ∀ v, getU v (enterRanging u b q s) = if u = v then rangingRecord b q (getU u s) else getU v s :=
    fun v => getU_enterRanging u v b q s
  have hE : ∀ v, getE v (enterRanging u b q s)
      = if u = v then { getE u s with attemptPending := false, measurement := none } else getE v s := fun v => getE_enterRanging u v b q s
  have hser : ∀ v, (getU v (enterRanging u b q s)).serial = (getU v s).serial := by
    intro v
    rw [hU]
    split
    next huv => rw [huv]; rfl
    next => rfl
  refine h.extend { serial := ?_, credit := fun hs v => ?_ } fun _ _ hr hc => ⟨⟨?_, fun v p hp hfin => ?_⟩, fun v hv => ?_⟩
  · rintro ⟨hs1, hs2, hs3⟩
    refine ⟨fun v hv => ?_, fun v w x hv hw => hs2 v w x (hser v ▸ hv) (hser w ▸ hw), fun v x hv hx => ?_⟩
    · rw [hU] at hv
      split at hv
      next => simp [rangingRecord] at hv
      next => rw [hser]; exact hs1 v hv
    · refine hs3 v x ?_ (hser v ▸ hx)
      rw [hU] at hv
      split at hv
      next huv =>
        subst huv
        refine hfresh ?_
        simpa [neverServed, rangingRecord] using hv
      next => exact hv
  · rw [hU]
    split
    next => exact hs u
    next => exact hs v
  · obtain ⟨hnodup, hmem, hpend, hends⟩ := hr
    refine ⟨?_, fun v => ?_, fun v hv => ?_, fun he => absurd ((hends he).2 u) hfree⟩
    · rw [enterRanging_rangingQueue]
      exact List.nodup_append.mpr ⟨hnodup.filter _, by simp, by simp⟩
    · rw [enterRanging_rangingQueue, hU]
      by_cases huv : u = v
      · subst huv; simp [rangingRecord]
      · simp [huv, Ne.symm huv, hmem]
    · rw [hE] at hv
      split at hv
      next => simp at hv
      next huv => rw [hU, if_neg huv]; exact hpend v hv
  · rw [hU]
    split
    next huv => subst huv; exact absurd (hc u p hp hfin) hret
    next => exact hc v p hp hfin
  · rw [hU]
    split
    next huv => subst huv; exact absurd hv hret
    next => exact hv

/-- A freed record, out of the ranging queue and with its account as at reset (R36, R37). -/
theorem freed_keepsLaws {t : State} {u : UnitNo} {k : Nat} (hU : ∀ v, getU v t = if u = v then freedRecord k else getU v s)
    (hE : ∀ v, getE v t = if u = v then freedEc (getE u s) else getE v s)
    (hA : ∀ v, getA v t = if u = v then Account.blank else getA v s)
    (hq : t.ec.rangingQueue = s.ec.rangingQueue.filter (· ≠ u)) (hsc : t.sc = s.sc) (hdv : t.dv = s.dv)
    (hrest : t.tli = s.tli ∧ t.alarms = s.alarms ∧ t.ec.permits = s.ec.permits ∧ t.ec.strangers = s.ec.strangers)
    (hbox : OutboxLaw s → OutboxLaw t) :
    KeepsLaws s t where
  queue hs := by unfold QueueLaw; rw [hrest.1]; exact hs
  outbox := hbox
  enrolment hs := by unfold EnrolmentListLaw; rw [hrest.2.2.1, hrest.2.2.2]; exact hs
  district hs := by unfold DistrictListLaw; rw [hdv]; exact hs
  factor hs := by unfold FactorLaw; rw [hdv]; exact hs
  alarm hs := by intro j; rw [getK_congr hrest.2.1]; exact hs j
  serial := by
    rintro ⟨hs1, hs2, hs3⟩
    have hnone : ∀ v x, (getU v t).serial = some x → u ≠ v ∧ (getU v s).serial = some x := by
      intro v x hv
      rw [hU] at hv
      split at hv
      next => simp [freedRecord, UnitRecord.blank] at hv
      next huv => exact ⟨huv, hv⟩
    refine ⟨fun v hv => ?_, fun v w x hv hw => hs2 v w x (hnone v x hv).2 (hnone w x hw).2, fun v x hv hx => ?_⟩
    · rw [hU] at hv ⊢
      split
      next => rfl
      next huv => rw [if_neg huv] at hv; exact hs1 v hv
    · obtain ⟨huv, hx⟩ := hnone v x hx
      rw [hU, if_neg huv] at hv
      have := hs3 v x hv hx
      unfold isBarred at this ⊢
      rwa [hdv]
  credit hs v := by
    rw [hU]
    split
    next => simp [freedRecord, UnitRecord.blank]
    next => exact hs v
  counter hs v := by
    show AccountCounts (getA v t)
    rw [hA]
    split
    next => exact accountBlank_counts
    next => exact hs v
  pair hr hc := by
    refine ⟨hr.leave hq (by rw [hU, if_pos rfl]; simp [freedRecord, UnitRecord.blank])
      (fun v hv => by rw [hU, if_neg (Ne.symm hv)]) (fun v hv => ?_) ⟨by rw [hsc], by rw [hsc]⟩
      (fun _ => by rw [hU, if_pos rfl]; rfl), fun v p hp hfin => ?_⟩
    · rw [hE] at hv
      split at hv
      next => simp [freedEc] at hv
      next huv => exact ⟨Ne.symm huv, hv⟩
    · rw [hA] at hp
      split at hp
      next => simp [Account.blank] at hp
      next huv => rw [hU, if_neg huv]; exact hc v p hp hfin

/-- The bodies that a direct freeing fixes leave the classes of the notices as they are (R149). -/
@[simp] theorem fixBody_cls (u : UnitNo) (s : State) (b : NoticeBody) : (fixBody u s b).cls = b.cls := by
  unfold fixBody
  split
  · split <;> rfl
  · rfl

theorem outboxLaw_fixBodies {u : UnitNo} {t : State} (s' : State)
    (ht : t.sbp.outbox = s.sbp.outbox.map (fun n => { n with body := fixBody u s' n.body })) (hs : OutboxLaw s) : OutboxLaw t := by
  obtain ⟨hlen, hheld, hsorted⟩ := hs
  refine ⟨by rw [ht, List.length_map]; exact hlen, ?_, ?_⟩
  · rw [ht]
    unfold usageHeld at *
    rw [List.filter_map, List.length_map]
    simpa [Function.comp_def] using hheld
  · rw [ht, List.pairwise_map]
    simpa using hsorted

/-- What a direct freeing writes before it offers anything (R37, R149). -/
def freedDirect (u : UnitNo) (s : State) : State :=
  setU u (freedRecord 0) (directFreeBilling u (modE u freedEc (leaveRangingQueue u s)))

theorem freedDirect_lawful {u : UnitNo} (h : Lawful s₀ s)
    (hu : RangingLaw s₀ → ClosingLaw s₀ → RangingLaw s → (getU u s).state ≠ .retiring) : Lawful s₀ (freedDirect u s) := by
  have hU : ∀ v, getU v (freedDirect u s) = if u = v then freedRecord 0 else getU v s := fun v => getU_setU _ _ _ _
  have hE : ∀ v, getE v (freedDirect u s) = if u = v then freedEc (getE u s) else getE v s := by
    intro v
    show getE v (modE u freedEc (leaveRangingQueue u s)) = _
    rw [getE_modE, getE_leaveRangingQueue, getE_leaveRangingQueue, if_pos rfl]
    split <;> rfl
  have hA : ∀ v, getA v (freedDirect u s) = if u = v then Account.blank else getA v s := fun v => vector_get_set _ _ _ _
  have k : KeepsLaws s (freedDirect u s) :=
    freed_keepsLaws hU hE hA rfl rfl rfl ⟨rfl, rfl, rfl, rfl⟩ (outboxLaw_fixBodies _ rfl)
  refine h.extend k.toKeepsOwnLaws fun hr₀ hc₀ hr hc => ⟨k.pair hr hc, fun v hv => ?_⟩
  rw [hU]
  split
  next huv => subst huv; exact absurd hv (hu hr₀ hc₀ hr)
  next => exact hv

theorem directFree_eq (u : UnitNo) (s : State) : directFree u s =
    (let s2 := if (getU u s).state = .ranging then
        isoRemove u (offerDrop .ec u (withdrawOrders .ec (isAssignFor u) (freedDirect u s)).1)
      else freedDirect u s
    match (getU u s).serial with
    | some x => queueReleased u x (getU u s).level s2
    | none => s2) := rfl

theorem directFree_lawful {u : UnitNo} (h : Lawful s₀ s)
    (hu : RangingLaw s₀ → ClosingLaw s₀ → RangingLaw s → (getU u s).state ≠ .retiring) : Lawful s₀ (directFree u s) := by
  have h1 := freedDirect_lawful h hu
  rw [directFree_eq]
  simp only
  split
  · refine queueReleased_lawful ?_
    split
    · exact isoRemove_lawful (offerDrop_lawful (withdrawOrders_lawful h1))
    · exact h1
  · split
    · exact isoRemove_lawful (offerDrop_lawful (withdrawOrders_lawful h1))
    · exact h1

theorem retire_lawful {u : UnitNo} (h : Lawful s₀ s)
    (hu : RangingLaw s₀ → ClosingLaw s₀ → RangingLaw s → (getU u s).state ≠ .free) : Lawful s₀ (retire u s) := by
  have h1 : Lawful s₀ (modU u retiredRecord (leaveRangingQueue u s)) :=
    leave_lawful h rfl (by simp [retiredRecord]) (by simp [retiredRecord]) rfl id fun hr hc hrs => ⟨hu hr hc hrs, fun _ => rfl⟩
  have h2 : Lawful s₀ (isoRemove u (withdrawOrders .ec (fun o => isAssignFor u o || isEqdFor u o)
      (modU u retiredRecord (leaveRangingQueue u s))).1) := isoRemove_lawful (withdrawOrders_lawful h1)
  refine closeBilling_lawful h2 ?_
  rw [getU_congr (isoRemove_ut _ _)]
  show (getU u (modU u retiredRecord (leaveRangingQueue u s))).state = .retiring
  rw [getU_modU_same]
  rfl

theorem endService_lawful {u : UnitNo} (h : Lawful s₀ s) : Lawful s₀ (endService u s) := by
  unfold endService
  split
  next hs =>
    refine retire_lawful h fun _ _ _ hf => ?_
    simp [inService, serves, hf] at hs
  next =>
    split
    next hn =>
      refine directFree_lawful h fun _ _ _ hf => ?_
      simp [neverServed, hf] at hn
    next => exact h

theorem enterLost_lawful {u : UnitNo} (h : Lawful s₀ s) (hu : (getU u s).state = .active) : Lawful s₀ (enterLost u s) := by
  refine occur_lawful (modU_lawful h ⟨rfl, by simp [hu], by simp [hu], by simp [hu], fun hn => ?_, id⟩)
  simp [neverServed] at hn

theorem reRange_lawful {u : UnitNo} (h : Lawful s₀ s) (hu : serves (getU u s) = true) : Lawful s₀ (reRange u s) := by
  refine enterRanging_lawful h (fun hb => absurd hb (by simp)) (fun hf => ?_) (fun hf => ?_) <;> simp [serves, hf] at hu

theorem lostHoldStep_lawful {u : UnitNo} (h : Lawful s₀ s) : Lawful s₀ (lostHoldStep u s) := by
  unfold lostHoldStep
  split
  next hl =>
    refine retire_lawful (occur_lawful h) fun _ _ _ hf => ?_
    rw [(occur_reports _ _ _).getU] at hf
    simp [lostHoldExpired, hf] at hl
  next => exact h

theorem dropUnitStep_lawful {u : UnitNo} (h : Lawful s₀ s) : Lawful s₀ (dropUnitStep u s) := by
  unfold dropUnitStep
  split
  · exact offerDrop_lawful h
  · exact h

/-- The report of the final snapshot's notice frees its RETIRING record, and keeps the laws (R36, R146). -/
theorem freeRetired_keepsLaws {u : UnitNo} (hu : ClosingLaw s → (getU u s).state = .retiring) : KeepsLaws s (freeRetired u s) := by
  let s1 := setU u (freedRecord 4000) (modA u (fun _ => Account.blank) (modE u freedEc s))
  have hk : RangingLaw s → ClosingLaw s → s1.ec.rangingQueue = s.ec.rangingQueue.filter (· ≠ u) := by
    rintro ⟨-, hmem, -⟩ hc
    refine (List.filter_eq_self.mpr fun v hv => ?_).symm
    rw [decide_eq_true_eq]
    rintro rfl
    exact absurd ((hmem _).mp hv) (by rw [hu hc]; decide)
  have hU : ∀ v, getU v s1 = if u = v then freedRecord 4000 else getU v s := fun v => getU_setU _ _ _ _
  have hE : ∀ v, getE v s1 = if u = v then freedEc (getE u s) else getE v s := fun v => getE_modE _ _ _ _
  have hA : ∀ v, getA v s1 = if u = v then Account.blank else getA v s := fun v => vector_get_set _ _ _ _
  let s1' : State := { s1 with ec := { s1.ec with rangingQueue := s.ec.rangingQueue.filter (· ≠ u) } }
  have k : KeepsLaws s s1' := freed_keepsLaws hU hE hA rfl rfl rfl ⟨rfl, rfl, rfl, rfl⟩ id
  have h1 : KeepsLaws s s1 := by
    refine { queue := k.queue, outbox := k.outbox, enrolment := k.enrolment, district := k.district, factor := k.factor,
             alarm := k.alarm, serial := k.serial, credit := k.credit, counter := k.counter, pair := fun hr hc => ?_ }
    have : s1' = s1 := by simp only [s1', ← hk hr hc]
    exact this ▸ k.pair hr hc
  have h2 : Lawful s1 (if (getU u s).barSent then s1 else offerDrop .ut u s1) := by
    split
    · exact .refl _
    · exact offerDrop_lawful (.refl _)
  refine h1.trans ?_
  unfold freeRetired
  simp only
  split
  · exact (queueReleased_lawful h2).toKeepsLaws
  · exact h2.toKeepsLaws

/-- Every record but the freed one stays in RETIRING through that report. -/
theorem getU_freeRetired (u v : UnitNo) (s : State) :
    ∃ w b, getU v (freeRetired u s) = if u = v then { freedRecord 4000 with dropPending := b, dropWait := w } else getU v s := by
  let s1 := setU u (freedRecord 4000) (modA u (fun _ => Account.blank) (modE u freedEc s))
  have h1 : ∀ z, getU z s1 = if u = z then freedRecord 4000 else getU z s := fun z => getU_setU _ _ _ _
  have h2 : ∃ w b, ∀ z, getU z (if (getU u s).barSent then s1 else offerDrop .ut u s1)
      = if u = z then { freedRecord 4000 with dropPending := b, dropWait := w } else getU z s := by
    split
    · exact ⟨.idle, false, fun z => by rw [h1]; rfl⟩
    · obtain ⟨w, hw⟩ := offerDrop_ut .ut u s1
      refine ⟨w, true, fun z => ?_⟩
      rw [getU_congr hw, getU_setU, h1, h1, if_pos rfl]
      split <;> rfl
  obtain ⟨w, b, h2⟩ := h2
  refine ⟨w, b, ?_⟩
  rw [← h2 v]
  unfold freeRetired
  simp only
  split
  · exact (queueReleased_reports _ _ _ _).getU v
  · rfl

end

end Sys2Proof.Machine

/-!
SUPPORT. What the Enrolment Controller, the District View, the Light Monitor and the Burst Meter keep of the laws.
-/
namespace Sys2Proof.Machine

set_option Elab.async false

section
variable {s₀ s : State}

/-! ### Permits and strangers (R39 to R43) -/

/-- A change of the permits and the strangers alone. -/
theorem enrolment_lawful {l : List Permit} {q : List Stranger} (h : Lawful s₀ s)
    (hl : EnrolmentListLaw s → l.length ≤ 16 ∧ (l.map (·.serial)).Nodup ∧ q.length ≤ 8 ∧ (q.map (·.serial)).Nodup) :
    Lawful s₀ { s with ec := { s.ec with permits := l, strangers := q } } := h.trans { enrolment := hl }

/-- A list of distinct serials that loses entries. -/
theorem sublist_lists {l l' : List Permit} {q q' : List Stranger} (hl : l'.Sublist l) (hq : q'.Sublist q)
    (h : l.length ≤ 16 ∧ (l.map (·.serial)).Nodup ∧ q.length ≤ 8 ∧ (q.map (·.serial)).Nodup) :
    l'.length ≤ 16 ∧ (l'.map (·.serial)).Nodup ∧ q'.length ≤ 8 ∧ (q'.map (·.serial)).Nodup := by
  obtain ⟨h1, h2, h3, h4⟩ := h
  exact ⟨Nat.le_trans hl.length_le h1, h2.sublist (hl.map _), Nat.le_trans hq.length_le h3, h4.sublist (hq.map _)⟩

theorem removePermit_lawful {x : Serial} (h : Lawful s₀ s) : Lawful s₀ (removePermit x s) :=
  enrolment_lawful h (sublist_lists List.filter_sublist (List.Sublist.refl _))

theorem removeStranger_lawful {x : Serial} (h : Lawful s₀ s) : Lawful s₀ (removeStranger x s) :=
  enrolment_lawful h (sublist_lists (List.Sublist.refl _) List.filter_sublist)

theorem setPermit_lawful {x : Serial} {p : Profile} (h : Lawful s₀ s) : Lawful s₀ (setPermit x p s) := by
  refine enrolment_lawful h fun ⟨h1, h2, h3, h4⟩ => ⟨by rwa [List.length_map], ?_, h3, h4⟩
  have : (fun q : Permit => q.serial) ∘ (fun q : Permit => if q.serial = x then { q with profile := p } else q)
      = fun q => q.serial := by
    funext q
    simp only [Function.comp]
    split <;> rfl
  rwa [List.map_map, this]

/-- A new serial joins the end of a list of distinct serials. -/
theorem nodup_map_append_singleton {α β : Type} {f : α → β} {l : List α} {a : α} (h : (l.map f).Nodup)
    (ha : ∀ b ∈ l, f b ≠ f a) : ((l ++ [a]).map f).Nodup := by
  rw [List.map_append, List.nodup_append]
  refine ⟨h, by simp, ?_⟩
  simp only [List.mem_map, List.map_cons, List.map_nil, List.mem_singleton]
  rintro _ ⟨b, hb, rfl⟩ _ rfl
  exact ha b hb

theorem permitOrder_lawful {x : Serial} {c : ProfileCodes} (h : Lawful s₀ s) : Lawful s₀ (permitOrder x c s).1 := by
  unfold permitOrder
  split
  · exact h
  split
  · exact h
  split
  · exact h
  split
  · exact removeStranger_lawful (setPermit_lawful h)
  next hnone =>
  split
  · exact h
  next hroom =>
    refine removeStranger_lawful (enrolment_lawful h fun ⟨h1, h2, h3, h4⟩ => ⟨by simp; omega, ?_, h3, h4⟩)
    refine nodup_map_append_singleton h2 fun q hq hx => hnone ?_
    exact (findPermit_isSome_iff x s).mpr ⟨q, hq, hx⟩

theorem withdrawOrder_lawful {x : Serial} (h : Lawful s₀ s) : Lawful s₀ (withdrawOrder x s).1 := by
  unfold withdrawOrder
  split
  · split
    · split
      next u _ hn =>
        refine directFree_lawful (removePermit_lawful h) fun _ _ _ hf => ?_
        have : (getU u s).state = .retiring := hf
        simp [neverServed, this] at hn
      next => exact removePermit_lawful h
    · exact removePermit_lawful h
  split
  · exact h
  · exact h

theorem revokeOrder_lawful {x : Serial} (h : Lawful s₀ s) : Lawful s₀ (revokeOrder x s).1 := by
  unfold revokeOrder
  split
  · exact h
  · split
    · exact h
    · exact h
    · exact h
    · exact endService_lawful h
    · exact endService_lawful h
    · exact endService_lawful h

theorem profileOrder_lawful {x : Serial} {c : ProfileCodes} (h : Lawful s₀ s) : Lawful s₀ (profileOrder x c s).1 := by
  unfold profileOrder
  split
  · exact h
  split
  · split
    · exact h
    · exact setPermit_lawful (modU_lawful h)
  · split
    · exact setPermit_lawful h
    · exact h

theorem hearStranger_lawful {x : Serial} (h : Lawful s₀ s) : Lawful s₀ (hearStranger x s) := by
  unfold hearStranger
  split
  next hany =>
    refine enrolment_lawful h fun ⟨h1, h2, h3, h4⟩ => ⟨h1, h2, ?_, ?_⟩
    · obtain ⟨e, he, hx⟩ := List.any_eq_true.mp hany
      have : (s.ec.strangers.filter (fun e => decide (e.serial ≠ x))).length < s.ec.strangers.length := by
        rw [List.length_filter_lt_length_iff_exists]
        exact ⟨e, he, by simpa using hx⟩
      rw [List.length_append, List.length_singleton]
      omega
    · refine nodup_map_append_singleton (h4.sublist (List.filter_sublist.map _)) fun e he => ?_
      simpa using (List.mem_filter.mp he).2
  next hnone =>
    refine occur_lawful (enrolment_lawful h fun ⟨h1, h2, h3, h4⟩ => ⟨h1, h2, ?_, ?_⟩)
    · split
      · simp; omega
      · simp; omega
    · have hsub : (if 8 ≤ s.ec.strangers.length then s.ec.strangers.drop 1 else s.ec.strangers).Sublist s.ec.strangers := by
        split
        · exact List.drop_sublist _ _
        · exact List.Sublist.refl _
      refine nodup_map_append_singleton (h4.sublist (hsub.map _)) fun e he hx => hnone ?_
      exact List.any_eq_true.mpr ⟨e, hsub.subset he, by simpa using hx⟩

theorem strangerStep_lawful {x : Serial} (h : Lawful s₀ s) : Lawful s₀ (strangerStep x s) :=
  enrolment_lawful h (sublist_lists (List.Sublist.refl _) List.filter_sublist)

/-! ### A heard serial (R45 to R50) -/

/-- An allocation (R29): a serial that no record holds and that is not barred, in a part that is SERVING. -/
theorem allocate_lawful {u : UnitNo} {x : Serial} {p : Profile} {level rtd : Nat} (h : Lawful s₀ s)
    (hu : (getU u s).state = .free) (hx : findUnit x s = none) (hb : isBarred x s = false) (hphase : s.sc.phase = .serving) :
    Lawful s₀ (allocate u x p level rtd s) := by
  let r : UnitRecord := { UnitRecord.blank with state := .claiming, serial := some x, profile := p, level := level }
  have hU : ∀ v, getU v (setU u r s) = if u = v then r else getU v s := fun v => getU_setU _ _ _ _
  have h1 : Lawful s₀ (setU u r s) := by
    refine h.extend { serial := ?_, credit := fun hs v => ?_ } fun _ _ hr hc => ⟨⟨?_, fun v q hq hfin => ?_⟩, fun v hv => ?_⟩
    · rintro ⟨hs1, hs2, hs3⟩
      have hnot : ∀ v, (getU v s).serial ≠ some x := by
        intro v hv
        by_cases hf : (getU v s).state = .free
        · rw [hs1 v hf] at hv; cases hv
        · exact (findUnit_eq_none_iff x s).mp hx v hf hv
      have hser : ∀ v, (getU v (setU u r s)).serial = if u = v then some x else (getU v s).serial := by
        intro v
        rw [hU]
        split <;> rfl
      refine ⟨fun v hv => ?_, fun v w y hv hw => ?_, fun v y hv hy => ?_⟩
      · rw [hU] at hv ⊢
        split at hv
        next => cases hv
        next huv => rw [if_neg huv]; exact hs1 v hv
      · rw [hser] at hv hw
        split at hv
        next huv =>
          obtain rfl := Option.some.inj hv
          split at hw
          next huw => exact huv.symm.trans huw
          next => exact absurd hw (hnot w)
        next =>
          split at hw
          next => obtain rfl := Option.some.inj hw; exact absurd hv (hnot v)
          next => exact hs2 v w y hv hw
      · rw [hser] at hy
        show isBarred y s = false
        split at hy
        next => obtain rfl := Option.some.inj hy; exact hb
        next huv => rw [hU, if_neg huv] at hv; exact hs3 v y hv hy
    · rw [hU]
      split
      next => exact Nat.zero_le _
      next => exact hs v
    · obtain ⟨hnodup, hmem, hpend, hends⟩ := hr
      refine ⟨hnodup, fun v => ?_, fun v hv => ?_, fun he => ?_⟩
      · rw [hU]
        split
        next huv =>
          subst huv
          exact (hmem u).trans (by rw [hu]; simp [r])
        next => exact hmem v
      · rw [hU]
        split
        next huv =>
          subst huv
          have := hpend u hv
          rw [hu] at this
          cases this
        next => exact hpend v hv
      · have := (hends he).1
        rw [hphase] at this
        cases this
    · rw [hU]
      split
      next huv =>
        subst huv
        have := hc u q hq hfin
        rw [hu] at this
        cases this
      next => exact hc v q hq hfin
    · rw [hU]
      split
      next huv => subst huv; rw [hu] at hv; cases hv
      next => exact hv
  exact queueClaiming_lawful (modE_lawful h1 fun hp => by simp [freedEc] at hp)

theorem hearPermitted_lawful {x : Serial} {p : Permit} {rtd : Int} {level : Nat} (h : Lawful s₀ s)
    (hx : findUnit x s = none) (hb : isBarred x s = false) (hphase : s.sc.phase = .serving) :
    Lawful s₀ (hearPermitted x p rtd level s) := by
  unfold hearPermitted
  split
  · exact occur_lawful h
  split
  · exact occur_lawful h
  split
  · exact occur_lawful h
  split
  · exact occur_lawful h
  next u hu =>
    have := List.find?_some hu
    simp only [allocatable, Bool.and_eq_true, beq_iff_eq] at this
    exact allocate_lawful h this.1.1 hx hb hphase

theorem serves_states {r : UnitRecord} (h : serves r = true) : r.state ≠ .free ∧ r.state ≠ .retiring ∧ r.state ≠ .ranging := by
  refine ⟨fun hf => ?_, fun hf => ?_, fun hf => ?_⟩ <;> simp [serves, hf] at h

theorem hearHeld_lawful {u : UnitNo} {x : Serial} {rtd : Int} (h : Lawful s₀ s) : Lawful s₀ (hearHeld u x rtd s) := by
  unfold hearHeld
  split
  · exact h
  next hs =>
  obtain ⟨hfree, hret, -⟩ := serves_states (by simpa using hs)
  split
  · exact offerAssign_lawful (enterRanging_lawful h (fun hb => absurd hb (by simp)) hfree hret)
  · exact occur_lawful h

theorem hearSerial_lawful {x : Serial} {rtd : Int} {level : Nat} (h : Lawful s₀ s) (hphase : s.sc.phase = .serving) :
    Lawful s₀ (hearSerial x rtd level s) := by
  unfold hearSerial
  split
  · exact occur_lawful h
  next hb =>
  split
  · exact hearHeld_lawful h
  next hx =>
  split
  · exact hearPermitted_lawful h hx (by simpa using hb) hphase
  · exact hearStranger_lawful h

theorem modPlan_lawful {n : Nat} {f : Plan → Plan} (h : Lawful s₀ s) : Lawful s₀ (modPlan n f s) := h.trans {}

theorem discoveryStep_lawful {n : Nat} {b : Burst} (h : Lawful s₀ s) : Lawful s₀ (discoveryStep n b s) := by
  unfold discoveryStep
  split
  · exact h
  split
  · simp only
    split
    next hphase => exact hearSerial_lawful (modPlan_lawful h) hphase
    next => exact modPlan_lawful h
  · exact h

/-! ### Claims on this station's records (R51 to R56) -/

theorem settleStep_lawful {u : UnitNo} (h : Lawful s₀ s) : Lawful s₀ (settleStep u s) := by
  unfold settleStep
  split
  next hs =>
    simp only [settleExpired, Bool.and_eq_true, beq_iff_eq] at hs
    obtain ⟨⟨hst, -⟩, -⟩ := hs
    exact offerAssign_lawful (modU_lawful (enterRanging_lawful h (fun _ => by simp [neverServed, hst]) (by simp [hst]) (by simp [hst])))
  next => exact h

theorem neverServed_states {r : UnitRecord} (h : neverServed r = true) : r.state ≠ .free ∧ r.state ≠ .retiring := by
  refine ⟨fun hf => ?_, fun hf => ?_⟩ <;> simp [neverServed, hf] at h

theorem yieldClaim_lawful {u : UnitNo} {x : Serial} (h : Lawful s₀ s) (hu : neverServed (getU u s) = true) :
    Lawful s₀ (yieldClaim u x s) := occur_lawful (directFree_lawful h fun _ _ _ => (neverServed_states hu).2)

theorem judgeClaim_lawful {x : Serial} {t : TreeStation} {level : Nat} {k : ClaimKind} (h : Lawful s₀ s) :
    Lawful s₀ (judgeClaim x t level k s) := by
  unfold judgeClaim
  split
  · exact h
  split
  next hn =>
    split
    · split
      · exact h
      · exact yieldClaim_lawful h hn
    · exact yieldClaim_lawful h hn
    · exact h
  split
  · split
    · exact queueHeld_lawful h
    · exact occur_lawful (modU_lawful h)
    · exact h
  · exact h

theorem claimReofferStep_lawful {x : Serial} (h : Lawful s₀ s) : Lawful s₀ (claimReofferStep x s) := by
  unfold claimReofferStep
  split
  · exact h
  next c _ =>
    have h1 : Lawful s₀ { s with ec := { s.ec with lostClaims := s.ec.lostClaims.erase c } } := h.trans {}
    simp only
    split
    · split
      · exact queueClaiming_lawful h1
      · exact h1
    · split
      · exact h1
      · exact queueReleased_lawful h1
    · exact h1

theorem assignStep_lawful {u : UnitNo} (h : Lawful s₀ s) : Lawful s₀ (assignStep u s) := by
  unfold assignStep
  split
  · exact offerAssign_lawful h
  · exact h

theorem refreshStep_lawful {u : UnitNo} (h : Lawful s₀ s) : Lawful s₀ (refreshStep u s) := by
  unfold refreshStep
  split
  · exact modU_lawful (queueHeld_lawful h)
  · exact h

/-! ### Ranging (R60 to R66) -/

/-- An EQD changes no more of a record than its EqD and its correction hold (R66). -/
theorem getU_offerEqd (u v : UnitNo) (q : Nat) (s : State) : getU v (offerEqd u q s)
    = if u = v ∧ s.tli.queue.length < 64 then { getU u s with eqd := some q, corrHold := 4 } else getU v s := by
  unfold offerEqd
  by_cases hroom : queueHasRoom 1 s = true
  · have hlen : s.tli.queue.length < 64 := by rw [queueHasRoom_iff] at hroom; omega
    rw [if_pos hroom, getU_modU, getU_congr (show (offerOrder .ec (.eqd u q) s).ut = s.ut by rw [offerOrder_frame]; rfl),
      getU_congr (show (offerOrder .ec (.eqd u q) s).ut = s.ut by rw [offerOrder_frame]; rfl)]
    simp [hlen]
  · have hlen : ¬s.tli.queue.length < 64 := by rw [queueHasRoom_iff] at hroom; omega
    rw [if_neg hroom]
    simp [hlen]

theorem offerEqd_state (u v : UnitNo) (q : Nat) (s : State) : (getU v (offerEqd u q s)).state = (getU v s).state := by
  rw [getU_offerEqd]
  split
  next h => rw [h.1]
  next => rfl

theorem rangingSuccess_lawful {u : UnitNo} {prov final : Nat} (h : Lawful s₀ s)
    (hu : RangingLaw s₀ → ClosingLaw s₀ → (getU u s).state = .ranging) : Lawful s₀ (rangingSuccess u prov final s) := by
  let s1 := modU u (fun r => { r with eqd := some prov }) s
  let s2 := if final = prov then s1 else offerEqd u final s1
  have h2 : Lawful s₀ s2 := by
    show Lawful s₀ (if final = prov then s1 else offerEqd u final s1)
    split
    · exact modU_lawful h
    · exact offerEqd_lawful (modU_lawful h)
  have hst : (getU u s2).state = (getU u s).state := by
    show (getU u (if final = prov then s1 else offerEqd u final s1)).state = _
    split
    · simp [s1]
    · rw [offerEqd_state]; simp [s1]
  have h4 := leave_lawful (u := u) (f := fun r =>
      { r with state := .active, provEqd := none, attempts := 0, credit := 3072, silent := 0, streak := 0, poll := 8,
               claimRefresh := 4000 }) h2 rfl (by simp) (by simp) rfl (fun _ => Nat.le_max_right _ _)
    (fun hr hc _ => by
      have := hst.trans (hu hr hc)
      exact ⟨by simp [this], by simp [this]⟩)
  unfold rangingSuccess
  simp only
  have h5 : ∀ o : Option Serial, Lawful s₀ (modU u (fun r => { r with everActive := true }) (queueHeld u
      (match o with
        | some x => removePermit x (modU u (fun r =>
            { r with state := .active, provEqd := none, attempts := 0, credit := 3072, silent := 0, streak := 0, poll := 8,
                     claimRefresh := 4000 }) (leaveRangingQueue u s2))
        | none => modU u (fun r =>
            { r with state := .active, provEqd := none, attempts := 0, credit := 3072, silent := 0, streak := 0, poll := 8,
                     claimRefresh := 4000 }) (leaveRangingQueue u s2)))) := by
    intro o
    cases o with
    | none => exact modU_lawful (queueHeld_lawful h4)
    | some x => exact modU_lawful (queueHeld_lawful (removePermit_lawful h4))
  split
  · exact h5 _
  · exact occur_lawful (h5 _)

theorem rangingLost_lawful {u : UnitNo} (h : Lawful s₀ s)
    (hu : RangingLaw s₀ → ClosingLaw s₀ → (getU u s).state = .ranging) : Lawful s₀ (rangingLost u s) := by
  have h1 := leave_lawful (u := u) (f := fun r =>
    { r with state := .lost, lostHold := 240000, poll := 64, provEqd := none, attempts := 0, claimRefresh := 4000 }) h rfl
    (by simp) (by simp) rfl id (fun hr hc _ => ⟨by simp [hu hr hc], by simp [hu hr hc]⟩)
  unfold rangingLost
  simp only
  refine queueHeld_lawful ?_
  split
  · split
    · exact h1
    · exact offerEqd_lawful h1
  · exact h1

/-- A record in RANGING goes to the tail of the ranging queue (R64). -/
theorem requeue_lawful {u : UnitNo} (h : Lawful s₀ s) (hu : RangingLaw s₀ → ClosingLaw s₀ → (getU u s).state = .ranging) :
    Lawful s₀ { s with ec := { s.ec with rangingQueue := s.ec.rangingQueue.filter (· ≠ u) ++ [u] } } := by
  refine h.extend {} fun hr₀ hc₀ ⟨hnodup, hmem, hpend, hends⟩ hc => ⟨⟨⟨?_, fun v => ?_, hpend, hends⟩, hc⟩, fun _ hv => hv⟩
  · exact List.nodup_append.mpr ⟨hnodup.filter _, by simp, by simp⟩
  · show v ∈ s.ec.rangingQueue.filter (· ≠ u) ++ [u] ↔ (getU v s).state = .ranging
    by_cases hvu : v = u
    · subst hvu; simp [hu hr₀ hc₀]
    · simp [hvu, hmem]

theorem rangingFailure_lawful {u : UnitNo} (h : Lawful s₀ s)
    (hu : RangingLaw s₀ → ClosingLaw s₀ → (getU u s).state = .ranging) : Lawful s₀ (rangingFailure u s) := by
  have h1 : Lawful s₀ (modU u (fun r => { r with attempts := r.attempts + 1 }) s) := modU_lawful h
  have hst : RangingLaw s₀ → ClosingLaw s₀ → (getU u (modU u (fun r => { r with attempts := r.attempts + 1 }) s)).state = .ranging :=
    fun hr hc => by rw [getU_modU_same]; exact hu hr hc
  unfold rangingFailure
  simp only
  split
  · exact requeue_lawful h1 hst
  · split
    · exact rangingLost_lawful (occur_lawful h1) fun hr hc => by rw [(occur_reports _ _ _).getU]; exact hst hr hc
    · refine directFree_lawful (occur_lawful h1) fun hr hc _ => ?_
      rw [(occur_reports _ _ _).getU, hst hr hc]
      decide

theorem judgeRanging_lawful {u : UnitNo} {start : Nat} {found : Option Burst} (h : Lawful s₀ s) :
    Lawful s₀ (judgeRanging u start found s) := by
  unfold judgeRanging
  split
  · exact h
  next hpend =>
  have h1 : Lawful s₀ (modE u (fun e => { e with attemptPending := false }) s) := modE_lawful h (by simp)
  have hu : RangingLaw s₀ → ClosingLaw s₀ → (getU u (modE u (fun e => { e with attemptPending := false }) s)).state = .ranging :=
    fun hr hc => (h.pair hr hc).1.2.2.1 u (by simpa using hpend)
  simp only
  split
  · split
    · split
      · exact rangingSuccess_lawful h1 hu
      · exact endService_lawful (occur_lawful h1)
    · exact rangingFailure_lawful h1 hu
  · exact rangingFailure_lawful h1 hu

theorem rangingStep_lawful {n : Nat} {u : UnitNo} {found : Option Burst} (h : Lawful s₀ s) :
    Lawful s₀ (rangingStep n u found s) := by
  unfold rangingStep
  split
  · exact h
  split
  · exact h
  · exact judgeRanging_lawful h

theorem driftStep_lawful {u : UnitNo} {d : Int} (h : Lawful s₀ s) : Lawful s₀ (driftStep u d s) := by
  have h1 : ∀ c : Bool, Lawful s₀ (if c then occur .reachEdge (getU u s).serial s else s) := by
    intro c
    split
    · exact occur_lawful h
    · exact h
  unfold driftStep
  simp only
  split
  · exact h
  split
  · split
    · exact h1 _
    · exact offerEqd_lawful (h1 _)
  · exact h

/-! ### The District View (chapter 8) -/

theorem factorOf_range (k sum : Nat) : 32 ≤ factorOf k sum ∧ factorOf k sum ≤ 256 := by
  unfold factorOf
  split <;> omega

theorem recomputeF_lawful (h : Lawful s₀ s) : Lawful s₀ (recomputeF s) := h.trans { factor := fun _ => factorOf_range _ _ }

theorem setLoad_lawful {t : TreeStation} {e : LoadEntry} (h : Lawful s₀ s) : Lawful s₀ (setLoad t e s) := h.trans {}

theorem loadStep_lawful {hd : NoticeHead} {b : LoadBody} (h : Lawful s₀ s) : Lawful s₀ (loadStep hd b s) := by
  unfold loadStep
  split
  · exact h
  · exact recomputeF_lawful (setLoad_lawful h)

theorem loadAgeOutStep_lawful {t : TreeStation} (h : Lawful s₀ s) : Lawful s₀ (loadAgeOutStep t s) := by
  unfold loadAgeOutStep
  simp only
  split
  · exact recomputeF_lawful (setLoad_lawful h)
  · exact h

theorem closeLoads_lawful {l : Nat} (h : Lawful s₀ s) : Lawful s₀ (closeLoads l s) :=
  recomputeF_lawful (setLoad_lawful (h.trans {}))

theorem intervalStep_lawful (h : Lawful s₀ s) : Lawful s₀ (intervalStep s) := by
  unfold intervalStep
  split
  · exact offerNotice_lawful (closeLoads_lawful (h.trans {}))
  · exact h

/-- A change of the claims list alone. -/
theorem claims_lawful {l : List ClaimEntry} {k : Nat} (h : Lawful s₀ s)
    (hl : DistrictListLaw s → l.length ≤ 32 ∧ (l.map (fun e => (e.serial, e.peer))).Nodup) :
    Lawful s₀ { s with dv := { s.dv with claims := l, claimsOverflow := k } } :=
  h.trans { district := fun hs => ⟨(hl hs).1, (hl hs).2, hs.2.2.1, hs.2.2.2⟩ }

theorem claimsSublist_lawful {l : List ClaimEntry} (h : Lawful s₀ s) (hl : l.Sublist s.dv.claims) :
    Lawful s₀ { s with dv := { s.dv with claims := l } } :=
  claims_lawful (k := s.dv.claimsOverflow) h fun hs => ⟨Nat.le_trans hl.length_le hs.1, hs.2.1.sublist (hl.map _)⟩

theorem claimExpiryStep_lawful {x : Serial} {t : TreeStation} (h : Lawful s₀ s) : Lawful s₀ (claimExpiryStep x t s) :=
  claimsSublist_lawful h List.filter_sublist

/-- Room is made in a full list by the loss of one entry (R158). -/
theorem makeRoom_sublist (l : List ClaimEntry) : (makeRoom l).Sublist l := by
  unfold makeRoom
  split
  · exact List.erase_sublist
  · exact List.drop_sublist _ _

theorem makeRoom_length {l : List ClaimEntry} : (makeRoom l).length = l.length - 1 := by
  unfold makeRoom
  split
  next e he => exact List.length_erase_of_mem (List.mem_of_find?_eq_some he)
  next => simp

theorem storeClaim_lawful {x : Serial} {t : TreeStation} {level : Nat} {k : StoredClaim} (h : Lawful s₀ s) :
    Lawful s₀ (storeClaim x t level k s) := by
  unfold storeClaim
  simp only
  split
  next hany =>
    refine claims_lawful (k := s.dv.claimsOverflow) h fun ⟨hlen, hnodup, _⟩ => ⟨?_, ?_⟩
    · obtain ⟨e, he, hx⟩ := List.any_eq_true.mp hany
      have : (s.dv.claims.filter (fun c => !hasKey x t c)).length < s.dv.claims.length := by
        rw [List.length_filter_lt_length_iff_exists]
        exact ⟨e, he, by simp [hx]⟩
      rw [List.length_append, List.length_singleton]
      omega
    · refine nodup_map_append_singleton (hnodup.sublist (List.filter_sublist.map _)) fun e he heq => ?_
      have := (List.mem_filter.mp he).2
      simp only [Prod.mk.injEq] at heq
      simp [hasKey, heq.1, heq.2] at this
  next hnone =>
  have hkey : ∀ e ∈ s.dv.claims, (e.serial, e.peer) ≠ (x, t) := by
    intro e he heq
    simp only [Prod.mk.injEq] at heq
    exact hnone (List.any_eq_true.mpr ⟨e, he, by simp [hasKey, heq.1, heq.2]⟩)
  split
  next hroom =>
    refine claims_lawful (k := s.dv.claimsOverflow) h fun ⟨hlen, hnodup, _⟩ => ⟨by simp; omega, ?_⟩
    exact nodup_map_append_singleton hnodup hkey
  next hfull =>
    refine claims_lawful h fun ⟨hlen, hnodup, _⟩ => ⟨?_, ?_⟩
    · rw [List.length_append, makeRoom_length, List.length_singleton]; omega
    · refine nodup_map_append_singleton (hnodup.sublist ((makeRoom_sublist _).map _)) fun e he => ?_
      exact hkey e ((makeRoom_sublist _).subset he)

theorem claimStep_lawful {hd : NoticeHead} {x : Serial} {level : BitVec 16} {k : StoredClaim} (h : Lawful s₀ s) :
    Lawful s₀ (claimStep hd x level k s) := by
  unfold claimStep
  split
  · exact h
  split
  · exact h
  · exact judgeClaim_lawful (storeClaim_lawful h)

theorem releasedStep_lawful {hd : NoticeHead} {x : Serial} {level : BitVec 16} (h : Lawful s₀ s) :
    Lawful s₀ (releasedStep hd x level s) := by
  unfold releasedStep
  split
  · exact h
  split
  · exact h
  · exact judgeClaim_lawful (claimsSublist_lawful h List.filter_sublist)

theorem presenceStep_lawful {hd : NoticeHead} (h : Lawful s₀ s) : Lawful s₀ (presenceStep hd s) := by
  unfold presenceStep
  split
  · exact h
  · refine foldl_lawful (foldl_lawful ?_ fun _ _ _ ht => queueHeld_lawful ht) fun _ _ _ ht => offerNotice_lawful ht
    exact claimsSublist_lawful (recomputeF_lawful (setLoad_lawful h)) List.filter_sublist

/-! ### The barred list (R162 to R165) -/

/-- A loss of entries of the barred list. -/
theorem unbar_lawful {l : List BarEntry} (h : Lawful s₀ s) (hl : l.Sublist s.dv.barred) :
    Lawful s₀ { s with dv := { s.dv with barred := l } } := by
  refine h.trans { district := fun ⟨h1, h2, h3, h4⟩ => ⟨h1, h2, Nat.le_trans hl.length_le h3, h4.sublist (hl.map _)⟩,
                   serial := fun ⟨h1, h2, h3⟩ => ⟨h1, h2, fun u x hu hx => ?_⟩ }
  rw [isBarred_eq_false_iff]
  exact fun b hb => (isBarred_eq_false_iff x s).mp (h3 u x hu hx) b (hl.subset hb)

/-- What `addBar` writes: the barred list and its eviction count (R162). -/
theorem addBar_frame (e : BarEntry) (s : State) :
    addBar e s = { s with dv := { s.dv with barred := (addBar e s).dv.barred, evictions := (addBar e s).dv.evictions } } := by
  unfold addBar
  split
  · rfl
  · split <;> rfl

theorem addBar_barred_subset {e b : BarEntry} (hb : b ∈ (addBar e s).dv.barred) : b = e ∨ b ∈ s.dv.barred := by
  unfold addBar at hb
  split at hb
  · exact .inr hb
  · split at hb
    · rcases List.mem_append.mp hb with hb | hb
      · exact .inr (List.mem_of_mem_drop hb)
      · exact .inl (List.mem_singleton.mp hb)
    · rcases List.mem_append.mp hb with hb | hb
      · exact .inr hb
      · exact .inl (List.mem_singleton.mp hb)

/-- A serial other than the entry's is barred by it no more than before. -/
theorem isBarred_addBar {e : BarEntry} {x : Serial} (hx : x ≠ e.serial) (hs : isBarred x s = false) :
    isBarred x (addBar e s) = false := by
  rw [isBarred_eq_false_iff] at hs ⊢
  intro b hb
  rcases addBar_barred_subset hb with rfl | hb
  · exact Ne.symm hx
  · exact hs b hb

theorem addBar_district {e : BarEntry} (hs : DistrictListLaw s) : DistrictListLaw (addBar e s) := by
  obtain ⟨h1, h2, h3, h4⟩ := hs
  unfold addBar
  split
  · exact ⟨h1, h2, h3, h4⟩
  next hb =>
  have hne := (isBarred_eq_false_iff e.serial s).mp (by simpa using hb)
  split
  · refine ⟨h1, h2, by simp; omega, ?_⟩
    exact nodup_map_append_singleton (h4.sublist ((List.drop_sublist _ _).map _)) fun b hb => hne b (List.mem_of_mem_drop hb)
  · refine ⟨h1, h2, by simp; omega, ?_⟩
    exact nodup_map_append_singleton h4 hne

/-- What follows the joining of a bar is lawful if the law of serials has come back by then. -/
theorem Lawful.after_addBar {e : BarEntry} {t : State} (k : Lawful (addBar e s) t) (hs : SerialLaw s → SerialLaw t) : Lawful s t := by
  rw [addBar_frame e s] at k
  exact
    { queue := k.queue, outbox := k.outbox, enrolment := k.enrolment, factor := k.factor, alarm := k.alarm, credit := k.credit,
      counter := k.counter, serial := hs, pair := k.pair, retiring := k.retiring,
      district := fun hd => k.district (by rw [← addBar_frame]; exact addBar_district hd) }

theorem serialLaw_addBar {e : BarEntry} (hs : SerialLaw s)
    (hfree : ∀ u, neverServed (getU u s) = true → (getU u s).serial ≠ some e.serial) : SerialLaw (addBar e s) := by
  have hU : ∀ u, getU u (addBar e s) = getU u s := fun u => by rw [addBar_frame]; rfl
  obtain ⟨h1, h2, h3⟩ := hs
  refine ⟨fun u => by rw [hU]; exact h1 u, fun u v x => by rw [hU, hU]; exact h2 u v x, fun u x => ?_⟩
  rw [hU]
  intro hu hx
  refine isBarred_addBar ?_ (h3 u x hu hx)
  rintro rfl
  exact hfree u hu hx

/-- A direct freeing leaves the barred list (R37). -/
theorem directFree_barred (u : UnitNo) (s : State) : (directFree u s).dv.barred = s.dv.barred := by
  have hrep : ∀ {a b : State}, OnlyReports a b → b.dv.barred = a.dv.barred := fun h => by rw [h.dv]
  have hdrop : ∀ a : State, (offerDrop .ec u a).dv = a.dv := by
    intro a
    rcases offerDrop_cases .ec u a with ⟨-, h⟩ | ⟨-, h⟩ <;> rw [h] <;> rfl
  rw [directFree_eq]
  simp only
  have h2 : (if (getU u s).state = .ranging then
        isoRemove u (offerDrop .ec u (withdrawOrders .ec (isAssignFor u) (freedDirect u s)).1)
      else freedDirect u s).dv.barred = s.dv.barred := by
    split
    · rw [(isoRemove_search _ _).dv]
      show (offerDrop .ec u _).dv.barred = _
      rw [hdrop]
      rfl
    · rfl
  split
  · rw [hrep (queueReleased_reports _ _ _ _), h2]
  · exact h2

theorem barStep_lawful {hd : NoticeHead} {x : Serial} {reason : Byte} (h : Lawful s₀ s) : Lawful s₀ (barStep hd x reason s) := by
  unfold barStep
  split
  next t why _ _ =>
    refine h.trans ?_
    have hU : ∀ u, getU u (addBar ⟨x, t, why⟩ s) = getU u s := fun u => by rw [addBar_frame]; rfl
    have hfind : findUnit x (addBar ⟨x, t, why⟩ s) = findUnit x s := by rw [addBar_frame]; rfl
    have hclear : ∀ {u}, findUnit x s = some u → SerialLaw s → ∀ v, v ≠ u → (getU v s).serial ≠ some x := by
      intro u hu hs v hvu hv
      have := List.find?_some hu
      rw [holds_iff] at this
      exact hvu (hs.2.1 v u x hv this.2)
    unfold barOnRecord
    split
    next hnone =>
      refine (Lawful.refl _).after_addBar fun hs => serialLaw_addBar hs fun u hu hx => ?_
      rw [hfind, findUnit_eq_none_iff] at hnone
      exact hnone u (neverServed_states hu).1 hx
    next u hu =>
    rw [hfind] at hu
    split
    next hn =>
      rw [hU] at hn
      have h1 : Lawful s (directFree u (addBar ⟨x, t, why⟩ s)) := by
        refine (directFree_lawful (.refl _) fun _ _ _ => by rw [hU]; exact (neverServed_states hn).2).after_addBar fun hs => ?_
        obtain ⟨w, hw⟩ : ∃ f : UnitNo → UnitRecord, ∀ v, getU v (directFree u (addBar ⟨x, t, why⟩ s)) = f v
            ∧ (v ≠ u → f v = getU v s) ∧ (v = u → (f v).state = .free ∧ (f v).serial = none) := by
          refine ⟨fun v => getU v (directFree u (addBar ⟨x, t, why⟩ s)), fun v => ⟨rfl, ?_, ?_⟩⟩
          · intro hvu
            obtain ⟨w, hw⟩ := getU_directFree u v (addBar ⟨x, t, why⟩ s)
            simp only [hw, if_neg (Ne.symm hvu), hU]
          · rintro rfl
            obtain ⟨w, hw⟩ := getU_directFree v v (addBar ⟨x, t, why⟩ s)
            simp [hw, freedRecord, UnitRecord.blank]
        have hser : ∀ v y, (getU v (directFree u (addBar ⟨x, t, why⟩ s))).serial = some y → v ≠ u ∧ (getU v s).serial = some y := by
          intro v y hv
          obtain ⟨he, hne, heq⟩ := hw v
          by_cases hvu : v = u
          · rw [he, (heq hvu).2] at hv; cases hv
          · exact ⟨hvu, by rwa [he, hne hvu] at hv⟩
        refine ⟨fun v hv => ?_, fun v v' y hv hv' => hs.2.1 v v' y (hser v y hv).2 (hser v' y hv').2, fun v y hv hy => ?_⟩
        · obtain ⟨he, hne, heq⟩ := hw v
          by_cases hvu : v = u
          · rw [he, (heq hvu).2]
          · rw [he, hne hvu] at hv ⊢
            exact hs.1 v hv
        · obtain ⟨hvu, hy'⟩ := hser v y hy
          have hv' : neverServed (getU v s) = true := by rwa [(hw v).1, (hw v).2.1 hvu] at hv
          have hbar := isBarred_addBar (e := ⟨x, t, why⟩) (s := s) (x := y)
            (by rintro rfl; exact hclear hu hs v hvu hy') (hs.2.2 v y hv' hy')
          unfold isBarred at hbar ⊢
          rwa [directFree_barred]
      exact occur_lawful h1
    next hn =>
    have h1 : Lawful s (addBar ⟨x, t, why⟩ s) := by
      refine (Lawful.refl _).after_addBar fun hs => serialLaw_addBar hs fun v hv hx => ?_
      by_cases hvu : v = u
      · subst hvu
        rw [hU] at hn
        exact hn hv
      · exact hclear hu hs v hvu hx
    split
    · exact occur_lawful (modU_lawful h1)
    · exact h1
  next => exact h

theorem barReofferStep_lawful {x : Serial} (h : Lawful s₀ s) : Lawful s₀ (barReofferStep x s) := by
  unfold barReofferStep
  split
  · exact h
  next b _ =>
    have h1 : Lawful s₀ { s with dv := { s.dv with lostBars := s.dv.lostBars.erase b } } := h.trans {}
    simp only
    split
    · exact offerNotice_lawful h1
    · exact h1

/-! ### The Light Monitor (chapter 6) -/

theorem offerBarSerial_lawful {x : Serial} (h : Lawful s₀ s) : Lawful s₀ (offerBarSerial x s) := by
  unfold offerBarSerial
  split
  · exact offerOrder_lawful h
  · exact h.trans {}

theorem barSerialStep_lawful {x : Serial} (h : Lawful s₀ s) : Lawful s₀ (barSerialStep x s) := by
  unfold barSerialStep
  split
  · exact h
  · exact offerBarSerial_lawful (h.trans {})

/-- Every record but `u` is left as it is by the end of its service (R35, R37). -/
theorem getU_endService_other {u v : UnitNo} (hv : v ≠ u) (s : State) : getU v (endService u s) = getU v s := by
  unfold endService
  split
  · rw [getU_retire, if_neg (Ne.symm hv)]
  split
  · obtain ⟨w, hw⟩ := getU_directFree u v s
    rw [hw, if_neg (Ne.symm hv)]
  · rfl

/-- A record whose service has ended has served, or holds no serial (R35, R37). -/
theorem endService_done (u : UnitNo) (s : State) :
    neverServed (getU u (endService u s)) = false := by
  unfold endService
  split
  · rw [getU_retire, if_pos rfl]; rfl
  split
  · obtain ⟨w, hw⟩ := getU_directFree u u s
    rw [hw, if_pos rfl]; rfl
  next hn => simpa using hn

/-- A condemnation (R114) of the record that holds the serial. -/
theorem condemnRecord_lawful {u : UnitNo} {x : Serial} {why : BarReason} (h : Lawful s₀ s) (hx : (getU u s).serial = some x) :
    Lawful s₀ (condemnRecord u x why s) := by
  let s1 := modU u (fun r => { r with barSent := true }) s
  have h1 : Lawful s s1 := modU_lawful (.refl _)
  let s2 := endService u s1
  have h2 : Lawful s s2 := endService_lawful h1
  have h3 : Lawful s (addBar ⟨x, s2.sc.station, why⟩ s2) := by
    have k : Lawful s2 s2 := .refl _
    have hcond : SerialLaw s → SerialLaw (addBar ⟨x, s2.sc.station, why⟩ s2) := by
      intro hs
      refine serialLaw_addBar (h2.serial hs) fun v hv hvx => ?_
      by_cases hvu : v = u
      · subst hvu
        rw [endService_done] at hv
        cases hv
      · refine hvu (hs.2.1 v u x ?_ hx)
        rw [show getU v s2 = getU v s by
          rw [getU_endService_other hvu, getU_modU, if_neg (Ne.symm hvu)]] at hvx
        exact hvx
    have hA := addBar_frame ⟨x, s2.sc.station, why⟩ s2
    refine
      { queue := fun hq => ?_, outbox := fun hq => ?_, enrolment := fun hq => ?_, factor := fun hq => ?_, alarm := fun hq => ?_,
        credit := fun hq => ?_, counter := fun hq => ?_, serial := hcond, pair := fun hr hc => ?_, retiring := fun hr hc => ?_,
        district := fun hd => addBar_district (h2.district hd) }
    · rw [hA]; exact h2.queue hq
    · rw [hA]; exact h2.outbox hq
    · rw [hA]; exact h2.enrolment hq
    · rw [hA]; exact h2.factor hq
    · rw [hA]; exact h2.alarm hq
    · rw [hA]; exact h2.credit hq
    · rw [hA]; exact h2.counter hq
    · rw [hA]; exact h2.pair hr hc
    · rw [hA]; exact h2.retiring hr hc
  exact h.trans (occur_lawful (offerNotice_lawful h3))

theorem condemnTail_lawful {u : UnitNo} (h : Lawful s₀ s) : Lawful s₀ (condemnTail u s) := by
  unfold condemnTail
  split
  · exact h
  next x hx =>
    refine condemnRecord_lawful (offerBarSerial_lawful h) ?_
    rw [getU_congr (show (offerBarSerial x s).ut = s.ut by
      unfold offerBarSerial
      split
      · rw [offerOrder_frame]; rfl
      · rfl)]
    exact hx

theorem verdictCondemned_lawful {u : UnitNo} (h : Lawful s₀ s) : Lawful s₀ (verdictCondemned u s) := by
  unfold verdictCondemned
  simp only
  split
  · exact modIso_lawful h
  next hx => exact addClosings_lawful (condemnRecord_lawful (modIso_lawful h) hx)

theorem tailSpanStep_lawful {u : UnitNo} (h : Lawful s₀ s) : Lawful s₀ (tailSpanStep u s) := by
  unfold tailSpanStep
  split
  · exact modU_lawful h
  · exact h

theorem tailSpanStep_state (u v : UnitNo) (s : State) : (getU v (tailSpanStep u s)).state = (getU v s).state := by
  unfold tailSpanStep
  split
  · rw [getU_modU]
    split
    next h => rw [h]
    next => rfl
  · rfl

theorem tailRerange_lawful {u : UnitNo} (h : Lawful s₀ s) (hu : serves (getU u s) = true) : Lawful s₀ (tailRerange u s) := by
  unfold tailRerange
  simp only
  split
  · refine reRange_lawful (occur_lawful (modU_lawful h)) ?_
    rw [(occur_reports _ _ _).getU, getU_modU_same]
    exact hu
  · exact condemnTail_lawful (occur_lawful (modU_lawful h))

theorem chargeTail_lawful {u : UnitNo} (h : Lawful s₀ s) : Lawful s₀ (chargeTail u s) := by
  unfold chargeTail
  split
  next hu =>
    simp only
    split
    · refine tailRerange_lawful (modU_lawful (tailSpanStep_lawful h)) ?_
      rw [getU_modU_same]
      have := tailSpanStep_state u u s
      simp only [serves, this] at hu ⊢
      exact hu
    · exact modU_lawful (tailSpanStep_lawful h)
  next => exact h

theorem chargeNamed_lawful {n : Nat} (h : Lawful s₀ s) : Lawful s₀ (chargeNamed n s) := by
  unfold chargeNamed
  split
  · exact chargeTail_lawful h
  · exact h

theorem advanceSpan_lawful {u : UnitNo} (h : Lawful s₀ s) : Lawful s₀ (advanceSpan u s) := by
  unfold advanceSpan
  split
  · refine modU_lawful (tailSpanStep_lawful h) ?_
    split
    · exact .of_same
    · exact .refl _
  · exact h

theorem modGrant_lawful {n : Nat} {u : UnitNo} {f : GrantRecord → GrantRecord} (h : Lawful s₀ s) : Lawful s₀ (modGrant n u f s) :=
  modPlan_lawful h

theorem guardStep_lawful {n : Nat} {u : UnitNo} {l : List Nat} (h : Lawful s₀ s) : Lawful s₀ (guardStep n u l s) := by
  unfold guardStep
  split
  · exact h
  split
  · exact h
  split
  · exact h
  · refine advanceSpan_lawful ?_
    split
    · exact chargeNamed_lawful (modGrant_lawful h)
    · exact modGrant_lawful h

theorem testResult_lawful (h : Lawful s₀ s) : Lawful s₀ (testResult s) := by
  have h1 : Lawful s₀ (modIso (fun m => { m with step := .idle }) s) := modIso_lawful h
  have hhalf : ∀ t, Lawful s₀ t → Lawful s₀ (speakHalf t) := fun t ht => offerStep_lawful (modIso_lawful ht)
  unfold testResult
  simp only
  split
  · unfold confirmResult
    split
    · exact verdictUnlocated_lawful h1
    · simp only
      split
      · exact verdictUnenrolled_lawful h1
      · exact hhalf _ (modIso_lawful h1)
  · split
    · unfold bisectLit
      split
      · exact verdictCondemned_lawful h1
      · exact offerStep_lawful (modIso_lawful h1)
    · unfold bisectClear
      simp only
      split
      · exact verdictUnenrolled_lawful (modIso_lawful h1)
      · exact hhalf _ (modIso_lawful h1)
  · exact h
  · exact h

theorem testSample_lawful {n : Nat} {lit : Bool} (h : Lawful s₀ s) : Lawful s₀ (testSample n lit s) := by
  unfold testSample
  simp only
  split
  · split
    · exact testResult_lawful (modIso_lawful h)
    · exact modIso_lawful h
  · exact h

theorem watchSample_lawful {n : Nat} {lit : Bool} (h : Lawful s₀ s) : Lawful s₀ (watchSample n lit s) := by
  have hconfirm : ∀ c : Bool, ∀ t, Lawful s₀ t → Lawful s₀ (if c then enterConfirm t else t) := by
    intro c t ht
    split
    · exact offerStep_lawful (modIso_lawful ht)
    · exact ht
  unfold watchSample
  split
  · exact modIso_lawful h
  split
  · exact hconfirm _ _ (modIso_lawful h)
  · exact h

theorem darkStep_lawful {n : Nat} {l : List Nat} (h : Lawful s₀ s) : Lawful s₀ (darkStep n l s) := by
  have h1 : Lawful s₀ { s with lm := { s.lm with lastDark := isLit (peakLevel l) s },
                               gs := { s.gs with plans := s.gs.plans.filter (fun p => p.round ≠ n) } } := h.trans {}
  unfold darkStep judgeDark
  simp only
  split
  · exact watchSample_lawful h1
  · exact testSample_lawful h1
  · exact testSample_lawful h1
  · exact h1

theorem stepReofferStep_lawful (h : Lawful s₀ s) : Lawful s₀ (stepReofferStep s) := by
  unfold stepReofferStep
  split
  · split
    · exact offerStep_lawful h
    · exact offerClosings_lawful h
  · exact h

theorem hushClearStep_lawful (h : Lawful s₀ s) : Lawful s₀ (hushClearStep s) :=
  foldl_lawful (modIso_lawful h) fun _ _ _ ht => clearHush_lawful ht

theorem holdoffStep_lawful (h : Lawful s₀ s) : Lawful s₀ (holdoffStep s) := by
  unfold holdoffStep
  split
  · simp only
    split
    · exact addClosings_lawful (modIso_lawful h)
    · split
      · exact modIso_lawful (modIso_lawful h)
      · exact modIso_lawful h
  · exact h

theorem abortSearch_lawful (h : Lawful s₀ s) : Lawful s₀ (abortSearch s) := by
  refine mapU_lawful (h.trans { queue := fun ⟨hlen, hgroups⟩ => ⟨?_, ?_⟩ }) fun _ => .of_same
  · simpa using hlen
  · simpa [List.pairwise_map] using hgroups

/-! ### The Burst Meter (chapter 5) -/

theorem lowerOutstanding_lawful {u : UnitNo} {g : GrantRecord} (h : Lawful s₀ s) : Lawful s₀ (lowerOutstanding u g s) := modU_lawful h

theorem countFailure_lawful {u : UnitNo} (h : Lawful s₀ s) : Lawful s₀ (countFailure u s) := by
  unfold countFailure
  split
  · exact h.trans {}
  · simp only
    split
    next hst => exact enterLost_lawful (modU_lawful h) hst.1
    next => exact modU_lawful h

theorem failedOutcome_lawful {u : UnitNo} {g : GrantRecord} (h : Lawful s₀ s) : Lawful s₀ (failedOutcome u g s) := by
  unfold failedOutcome
  split
  · exact countFailure_lawful (lowerOutstanding_lawful h)
  split
  · exact lowerOutstanding_lawful h
  · exact h

theorem misalignedOutcome_lawful {u : UnitNo} {g : GrantRecord} (h : Lawful s₀ s) : Lawful s₀ (misalignedOutcome u g s) := by
  unfold misalignedOutcome
  split
  · have h1 : Lawful s₀ (occur .misaligned (getU u s).serial
        (modU u (fun r => { r with streak := satAdd 2 r.streak 1 }) (lowerOutstanding u g s))) :=
      occur_lawful (modU_lawful (lowerOutstanding_lawful h))
    simp only
    split
    next hs =>
      rw [Bool.and_eq_true] at hs
      exact reRange_lawful h1 hs.1
    next => exact h1
  split
  · exact lowerOutstanding_lawful h
  · exact h

theorem sendUpstream_lawful {u : UnitNo} {b : Burst} (h : Lawful s₀ s) : Lawful s₀ (sendUpstream u b s) := by
  unfold sendUpstream
  split
  · exact h
  · exact h.trans {}

/-- A VALID burst moves its record at most from LOST to ACTIVE (R33, R96). -/
theorem validRecord_stays (g : GrantRecord) (b : Burst) (r : UnitRecord) : RecordStays r (returnFromLost (validRecord g b r)) := by
  have h1 : RecordStays r (validRecord g b r) := .of_same
  refine h1.trans ?_
  unfold returnFromLost
  split
  next hl => exact ⟨rfl, by simp [hl], by simp [hl], by simp [hl], fun hn => by simp [neverServed] at hn, id⟩
  next => exact .refl _

theorem validOutcome_lawful {u : UnitNo} {g : GrantRecord} {b : Burst} (h : Lawful s₀ s) : Lawful s₀ (validOutcome u g b s) := by
  unfold validOutcome
  split
  · exact sendUpstream_lawful (attributeBurst_lawful (driftStep_lawful (modU_lawful h (validRecord_stays _ _ _))))
  split
  · exact sendUpstream_lawful (lowerOutstanding_lawful h)
  · exact h

theorem burstStep_lawful {n : Nat} {u : UnitNo} {found : Option Burst} (h : Lawful s₀ s) : Lawful s₀ (burstStep n u found s) := by
  unfold burstStep
  split
  · exact h
  split
  · exact h
  split
  · exact h
  · have h1 := modGrant_lawful (n := n) (u := u) (f := fun g => { g with answered := true }) h
    unfold applyOutcome
    split
    · exact failedOutcome_lawful h1
    · exact failedOutcome_lawful h1
    · exact chargeNamed_lawful (failedOutcome_lawful h1)
    · exact misalignedOutcome_lawful h1
    · exact validOutcome_lawful h1
    · exact h1

end

end Sys2Proof.Machine

/-!
PROOFS. What the plan, the start phases, the shelf bus and the round-marker event keep of the laws, and with it the step lemmas of
the laws (O55 to O58), the laws at reset (O59), and the one event that ends RETIRING (O60).
-/
namespace Sys2Proof.Machine

set_option Elab.async false

section
variable {s₀ s : State}

/-! ### The plan (chapter 4) -/

/-- Writes of a table, one entry at a time, each of which leaves its record where it is. -/
theorem foldl_stays {α : Type} (g : Vector UnitRecord 64 → α → Vector UnitRecord 64)
    (hg : ∀ v a i, RecordStays (v.get i) ((g v a).get i)) (l : List α) (v : Vector UnitRecord 64) (i : UnitNo) :
    RecordStays (v.get i) ((l.foldl g v).get i) := by
  induction l generalizing v with
  | nil => exact .refl _
  | cons a l ih => exact (hg v a i).trans (ih _)

/-- A write of one entry that leaves its record where it is. -/
theorem set_stays {v : Vector UnitRecord 64} {u : UnitNo} {r : UnitRecord} (h : RecordStays (v.get u) r) (i : UnitNo) :
    RecordStays (v.get i) ((v.set u r).get i) := by
  rw [vector_get_set]
  split
  next hui => exact hui ▸ h
  next => exact .refl _

theorem applyStaged_stays (r : UnitRecord) : RecordStays r (applyStaged r) := by
  unfold applyStaged
  split
  · exact .refl _
  · exact ⟨rfl, .rfl, .rfl, .rfl, id, fun _ => Nat.min_le_right _ _⟩

theorem addCredit_stays (r : UnitRecord) : RecordStays r (addCredit r) := by
  unfold addCredit
  split
  · exact ⟨rfl, .rfl, .rfl, .rfl, id, fun _ => Nat.min_le_right _ _⟩
  · exact .refl _

theorem lowerPoll_stays (r : UnitRecord) : RecordStays r (lowerPoll r) := by
  unfold lowerPoll
  split
  · exact .of_same
  · exact .refl _

theorem grantRecordTo_stays (h : Share) (r : UnitRecord) : RecordStays r (grantRecordTo h r) := by
  unfold grantRecordTo
  split
  · exact ⟨rfl, .rfl, .rfl, .rfl, id, fun hc => Nat.le_trans (Nat.sub_le _ _) hc⟩
  · exact .refl _

theorem serveUnits_stays (g0 f : Nat) (p : UnitNo) (ut : Vector UnitRecord 64) (i : UnitNo) :
    RecordStays (ut.get i) ((serveUnits g0 f p ut).1.get i) := by
  unfold serveUnits
  simp only
  refine RecordStays.trans ?_ (foldl_stays _ (fun v u => set_stays .of_same) _ _ i)
  refine RecordStays.trans ?_ (foldl_stays _ (fun v h => set_stays (grantRecordTo_stays _ _)) _ _ i)
  rw [vmap_get]
  exact (addCredit_stays _).trans (lowerPoll_stays _)

/-- The records named for ranging stand in the ranging queue (R60). -/
theorem rangingPick_subset (carried : List PuOrder) (s : State) {u : UnitNo} (h : u ∈ rangingPick carried s) :
    u ∈ s.ec.rangingQueue := by
  unfold rangingPick at h
  split at h
  · exact (List.mem_filter.mp (List.mem_of_mem_take h)).1
  · cases h

theorem markRanged_lawful {l : List UnitNo} (h : Lawful s₀ s) (hl : ∀ u ∈ l, u ∈ s.ec.rangingQueue) :
    Lawful s₀ (markRanged l s) := by
  induction l generalizing s with
  | nil => exact h
  | cons u l ih =>
    refine ih (h.trans { pair := ?_ }) (fun v hv => hl v (List.mem_cons_of_mem _ hv))
    rintro ⟨hnodup, hmem, hpend, hends⟩ hc
    refine ⟨⟨hnodup, hmem, fun v hv => ?_, hends⟩, hc⟩
    rw [getE_modE] at hv
    split at hv
    next huv => exact (hmem v).mp (huv ▸ hl u List.mem_cons_self)
    next => exact hpend v hv

theorem planRound_lawful {n : Nat} {carried : List PuOrder} (h : Lawful s₀ s) : Lawful s₀ (planRound n carried s) := by
  unfold planRound
  simp only
  generalize hut : (if s.sc.phase = .serving then serveUnits _ _ _ _ else _) = served
  have h1 : Lawful s₀ { s with ut := served.1 } := by
    refine records_lawful h rfl fun v => ?_
    show RecordStays (s.ut.get v) (served.1.get v)
    have hst : RecordStays (s.ut.get v) ((vmap applyStaged s.ut).get v) := by
      rw [vmap_get]
      exact applyStaged_stays _
    subst hut
    split
    · exact hst.trans (serveUnits_stays _ _ _ _ v)
    · exact hst
  have h2 : Lawful s₀ { s with ut := served.1, ec := { s.ec with
      sinceDiscovery := countDiscovery (discoveryDue s) s.ec.sinceDiscovery } } := h1.trans {}
  exact (markRanged_lawful h2 fun u hu => rangingPick_subset carried s hu).trans {}

/-! ### Alarms and start (chapters 10 and 11) -/

theorem clearRecord_law {a : AlarmRecord} (ha : AlarmRecordLaw a) : AlarmRecordLaw (clearRecord a) := by
  obtain ⟨hlen, hnodup, hsubj, hclear⟩ := ha
  unfold clearRecord
  split
  next x rest hw =>
    rw [hw] at hlen hnodup
    rw [List.nodup_cons] at hnodup
    refine ⟨by simp at hlen ⊢; omega, hnodup.2, fun y hy hxy => ?_, fun hr => ?_⟩
    · obtain rfl := Option.some.inj hxy
      exact hnodup.1 hy
    · have := (hclear hr).2
      rw [hw] at this
      cases this
  next hw => simp [AlarmRecordLaw, hw]

theorem alarmClearOrder_lawful {b : Byte} (h : Lawful s₀ s) : Lawful s₀ (alarmClearOrder b s).1 := by
  unfold alarmClearOrder
  split
  · exact h
  split
  · simp only
    split
    · exact offerNotice_lawful (modK_lawful h clearRecord_law)
    · exact modK_lawful h clearRecord_law
  · exact h

theorem alarmReofferStep_lawful {k : AlarmKind} (h : Lawful s₀ s) : Lawful s₀ (alarmReofferStep k s) := by
  unfold alarmReofferStep
  split
  · exact offerNotice_lawful (modK_lawful h id)
  · exact h

/-- A change of the Start Controller that starts no end of a restart, and ends no restart at which one stands. -/
theorem sc_lawful {c : StartCtl} (h : Lawful s₀ s)
    (hc : c.restartEnds = true → s.sc.restartEnds = true ∧ (s.sc.phase = .restarting → c.phase = .restarting)) :
    Lawful s₀ { s with sc := c } := by
  refine h.trans { pair := ?_ }
  rintro ⟨hnodup, hmem, hpend, hends⟩ hcl
  refine ⟨⟨hnodup, hmem, hpend, fun he => ?_⟩, hcl⟩
  obtain ⟨he', hphase⟩ := hc he
  exact ⟨hphase (hends he').1, (hends he').2⟩

theorem settingsOrder_lawful {f : SettingsFields} (h : Lawful s₀ s) : Lawful s₀ (settingsOrder f s).1 := by
  unfold settingsOrder
  split
  · exact h
  split
  · exact h
  · have h1 : Lawful s₀ (lockSettings (settingsOf f) s) := recomputeF_lawful (sc_lawful h fun he => ⟨he, id⟩)
    simp only
    unfold serveFromEnlist
    split
    next hp => exact sc_lawful h1 fun he => ⟨he, fun hr => by rw [hp] at hr; cases hr⟩
    next => exact h1

theorem endListen_lawful (h : Lawful s₀ s) (hp : s.sc.phase = .listen) : Lawful s₀ (endListen s) := by
  have hc : s.sc.phase = .restarting → False := fun hr => by rw [hp] at hr; cases hr
  unfold endListen
  split
  · exact sc_lawful h fun he => ⟨he, fun hr => (hc hr).elim⟩
  · exact sc_lawful h fun he => ⟨he, fun hr => (hc hr).elim⟩

theorem endEnlist_lawful (h : Lawful s₀ s) (hp : s.sc.phase = .enlist) : Lawful s₀ (endEnlist s) := by
  have h1 : Lawful s₀ (lockSettings Settings.defaults s) := recomputeF_lawful (sc_lawful h fun he => ⟨he, id⟩)
  refine occur_lawful (sc_lawful h1 fun he => ⟨he, fun hr => ?_⟩)
  have : s.sc.phase = .restarting := hr
  rw [hp] at this
  cases this

theorem scTaken_lawful (h : Lawful s₀ s) : Lawful s₀ (scTaken s) := sc_lawful h fun he => ⟨he, id⟩

theorem listenStep_lawful (h : Lawful s₀ s) : Lawful s₀ (listenStep s) := by
  unfold listenStep
  split
  next hp => exact scTaken_lawful (endListen_lawful h hp.1)
  next => exact h

theorem enlistStep_lawful (h : Lawful s₀ s) : Lawful s₀ (enlistStep s) := by
  unfold enlistStep
  split
  next hp => exact scTaken_lawful (endEnlist_lawful h hp.1)
  next => exact h

theorem scTick_lawful (h : Lawful s₀ s) : Lawful s₀ (scTick s) := by
  unfold scTick
  split
  · exact sc_lawful h fun he => ⟨he, id⟩
  split
  next hp =>
    split
    · exact h
    split
    · exact endListen_lawful h hp
    · exact sc_lawful h fun he => ⟨he, id⟩
  next hp =>
    split
    · exact endEnlist_lawful h hp
    · exact sc_lawful h fun he => ⟨he, id⟩
  · exact h
  · exact h

theorem presenceReofferStep_lawful (h : Lawful s₀ s) : Lawful s₀ (presenceReofferStep s) := by
  unfold presenceReofferStep
  split
  · have h1 : Lawful s₀ { s with sc := { s.sc with presence := s.sc.presence.made } } := sc_lawful h fun he => ⟨he, id⟩
    simp only
    split
    · exact offerNotice_lawful h1
    · exact h1
  · exact h

theorem restartOrder_lawful (h : Lawful s₀ s) : Lawful s₀ (restartOrder s).1 := by
  unfold restartOrder
  split
  · simp only
    unfold beginRestart
    refine foldl_lawful (abortSearch_lawful (sc_lawful h ?_)) fun _ _ _ ht => endService_lawful ht
    exact fun he => by cases he
  · exact h

theorem restartEndStep_lawful (h : Lawful s₀ s) : Lawful s₀ (restartEndStep s) := by
  unfold restartEndStep
  split
  next hends =>
    refine mapU_lawful (h.trans { enrolment := fun ⟨h1, h2, _, _⟩ => ⟨h1, h2, by simp, by simp⟩, pair := ?_ }) fun _ => .of_same
    rintro ⟨-, -, hpend, hall⟩ hc
    have hfree := (hall hends).2
    refine ⟨⟨List.nodup_nil, fun u => ?_, hpend, fun he => by cases he⟩, hc⟩
    have : (getU u s).state ≠ .ranging := by rw [hfree]; decide
    exact ⟨fun hu => absurd hu List.not_mem_nil, fun hu => absurd hu this⟩
  next => exact h

/-! ### The shelf bus port (chapter 9) -/

theorem ownerActs_lawful {o : Order} (h : Lawful s₀ s) : Lawful s₀ (ownerActs o s).1 := by
  cases o with
  | settings f => exact settingsOrder_lawful (f := f) h
  | permit x c => exact permitOrder_lawful (x := x) (c := c) h
  | withdraw x => exact withdrawOrder_lawful (x := x) h
  | revoke x => exact revokeOrder_lawful (x := x) h
  | profile x c => exact profileOrder_lawful (x := x) (c := c) h
  | band b =>
    show Lawful s₀ (bandOrder b s).1
    unfold bandOrder
    split
    · exact h.trans {}
    · exact h
  | take =>
    simp only [ownerActs, takeOrder]
    exact takeAll_lawful h
  | alarmClear k => exact alarmClearOrder_lawful (b := k) h
  | unbar x =>
    simp only [ownerActs, unbarOrder]
    exact unbar_lawful h List.filter_sublist
  | restart =>
    simp only [ownerActs, plainData]
    exact restartOrder_lawful h
  | malformed k => exact h

theorem orderEffect_lawful {o : Order} (h : Lawful s₀ s) : Lawful s₀ (orderEffect o s).1 := by
  have hif : ∀ c : Bool, ∀ out, Lawful s₀ (if c then ownerActs o s else (s, out, KindData.none)).1 := by
    intro c out
    split
    · exact ownerActs_lawful h
    · exact h
  unfold orderEffect
  split
  · exact h
  split
  · exact hif _ _
  · exact hif _ _
  · exact ownerActs_lawful h
  · exact hif _ _

theorem receiveOrder_lawful {hd : OrderHead} {o : Order} (h : Lawful s₀ s) : Lawful s₀ (receiveOrder hd o s) := by
  unfold receiveOrder
  split
  · exact h
  split
  · exact h.trans {}
  · simp only
    split
    · exact orderEffect_lawful h
    · exact offerNotice_lawful (orderEffect_lawful h)

theorem dispatchNotice_lawful {cls : Nat} {hd : NoticeHead} {body : List Byte} (h : Lawful s₀ s) :
    Lawful s₀ (dispatchNotice cls hd body s) := by
  unfold dispatchNotice
  split
  · split
    · refine receiveOrder_lawful ?_
      unfold spendFree
      split
      · exact h.trans {}
      · exact h
    · exact h
  · unfold claimBody
    simp only
    split
    · exact claimStep_lawful h
    · exact claimStep_lawful h
    · exact releasedStep_lawful h
    · exact h
  · exact barStep_lawful h
  · exact loadStep_lawful h
  · exact presenceStep_lawful h
  · exact h

theorem lineAt_lawful {k : Nat} {b : Bool} (h : Lawful s₀ s) : Lawful s₀ (lineAt k b s) := h.trans {}

theorem receiveStep_lawful {heard : Reception} {bytes : List Byte} (h : Lawful s₀ s) :
    Lawful s₀ (receiveStep heard bytes s) := by
  unfold receiveStep
  split
  · exact lineAt_lawful h
  split
  · unfold hearStep
    split
    · exact (lineAt_lawful (k := 0) (b := true) h).trans {}
    · exact lineAt_lawful h
    · exact dispatchNotice_lawful (lineAt_lawful h)
  · exact lineAt_lawful h

theorem startNotice_lawful {n : Notice} (h : Lawful s₀ s) : Lawful s₀ (startNotice n s) := by
  unfold startNotice
  split
  · exact moveSnapshot_lawful (h.trans {}) fun _ => rfl
  · exact h.trans {}

theorem startSending_lawful (h : Lawful s₀ s) : Lawful s₀ (startSending s) := by
  unfold startSending
  split
  · exact lineAt_lawful (h.trans {})
  split
  · exact h
  next n rest hbox =>
    refine startNotice_lawful (lineAt_lawful (h.trans { outbox := outboxLaw_sublist ?_ }))
    rw [hbox]
    exact List.sublist_cons_self _ _

theorem transmitStep_lawful {k : Nat} (h : Lawful s₀ s) : Lawful s₀ (transmitStep k s) := by
  unfold transmitStep
  simp only
  split
  · exact lineAt_lawful h
  · exact startSending_lawful (lineAt_lawful h)

theorem faultStep_lawful (h : Lawful s₀ s) : Lawful s₀ (faultStep s) := by
  unfold faultStep
  split
  · exact h
  · unfold reportAborted
    split
    · exact usageAborted_lawful (h.trans {})
    · exact noteLost_lawful (h.trans {})

theorem pacingStep_lawful (h : Lawful s₀ s) : Lawful s₀ (pacingStep s) := by
  unfold pacingStep
  split
  · exact pace_lawful (h.trans {})
  · exact h

/-! ### The round-marker event (R1) -/

theorem flushUnit_lawful {u : UnitNo} (h : Lawful s₀ s) : Lawful s₀ (flushUnit u s) :=
  dropUnitStep_lawful (assignStep_lawful (refreshStep_lawful (lostHoldStep_lawful (settleStep_lawful h))))

theorem flushLists_lawful (h : Lawful s₀ s) : Lawful s₀ (flushLists s) :=
  foldl_lawful (foldl_lawful (foldl_lawful (foldl_lawful (foldl_lawful h fun _ _ _ ht => strangerStep_lawful ht)
    fun _ _ _ ht => claimExpiryStep_lawful ht) fun _ _ _ ht => claimReofferStep_lawful ht)
    fun _ _ _ ht => barReofferStep_lawful ht) fun _ _ _ ht => barSerialStep_lawful ht

theorem hushDueStep_lawful (h : Lawful s₀ s) : Lawful s₀ (hushDueStep s) := by
  unfold hushDueStep
  split
  · exact hushClearStep_lawful h
  · exact h

theorem flushDue_lawful (h : Lawful s₀ s) : Lawful s₀ (flushDue s) := by
  have h1 := stepReofferStep_lawful (hushDueStep_lawful (holdoffStep_lawful (restartEndStep_lawful (intervalStep_lawful h))))
  have h2 := flushLists_lawful (foldl_lawful (l := allUnits) (f := fun t u => flushUnit u t) h1 fun _ _ _ ht => flushUnit_lawful ht)
  exact pacingStep_lawful (foldl_lawful (presenceReofferStep_lawful h2) fun _ _ _ ht => alarmReofferStep_lawful ht)

theorem tickCounts_lawful (h : Lawful s₀ s) : Lawful s₀ (tickCounts s) := by
  have h1 : Lawful s₀ (mapU tickRecord s) := mapU_lawful h fun _ => .of_same
  refine h1.trans { enrolment := fun ⟨p1, p2, p3, p4⟩ => ⟨p1, p2, ?_, ?_⟩, district := fun ⟨d1, d2, d3, d4⟩ => ⟨?_, ?_, d3, d4⟩,
                    alarm := fun ha k => ?_, pair := ?_ }
  · simpa [tickCounts, tickEc] using p3
  · simpa [tickCounts, tickEc, Function.comp_def] using p4
  · simpa [tickCounts, tickDistrict] using d1
  · simpa [tickCounts, tickDistrict, Function.comp_def] using d2
  · have : getK k (tickCounts s) = { getK k s with reoffer := (getK k s).reoffer.tick } := vmap_get _ _ _
    rw [this]
    exact ha k
  · rintro ⟨hnodup, hmem, hpend, hends⟩ hc
    refine ⟨⟨hnodup, hmem, fun u hu => hpend u ?_, hends⟩, hc⟩
    have : getE u (tickCounts s) = { getE u s with assignWait := (getE u s).assignWait.tick } := vmap_get _ _ _
    rw [this] at hu
    exact hu

theorem purgeOrders_lawful (h : Lawful s₀ s) : Lawful s₀ (purgeOrders s) := by
  unfold purgeOrders
  split
  · refine foldl_lawful (sublistQueue_lawful h List.filter_sublist) fun q _ t ht => ?_
    unfold purgedOrder
    split
    · exact modU_lawful ht
    · exact ht
  · exact h

theorem orderCarried_lawful {n : Nat} {q : QueuedOrder} (h : Lawful s₀ s) : Lawful s₀ (orderCarried n s q) := by
  have h1 : ∀ o : PuOrder, Lawful s₀ (match o with
      | .assign u _ _ => modE u (fun e => { e with lastCarriage := some n }) s
      | .eqd u _ => modE u (fun e => { e with lastCarriage := some n }) s
      | .dropUnit u => modU u (fun r => { r with dropPending := false }) s
      | _ => s) := by
    intro o
    split
    · exact modE_lawful h
    · exact modE_lawful h
    · exact modU_lawful h
    · exact h
  unfold orderCarried
  simp only
  split
  · exact h1 q.order
  · exact stepCarried_lawful (h1 q.order)
  · exact closingCarried_lawful (h1 q.order)

theorem carryOrders_lawful {n : Nat} (h : Lawful s₀ s) : Lawful s₀ (carryOrders n s) := by
  have h1 : Lawful s₀ ((frameOrders s).foldl (orderCarried n) (s.withQueue (s.tli.queue.drop 8))) :=
    foldl_lawful (sublistQueue_lawful h (List.drop_sublist _ _)) fun _ _ _ ht => orderCarried_lawful ht
  unfold carryOrders
  simp only
  split
  · exact stepCarried_lawful h1
  · exact h1

theorem lowerHolds_lawful (h : Lawful s₀ s) : Lawful s₀ (lowerHolds s) := by
  refine foldl_lawful h fun u _ t ht => ?_
  split
  · exact ht
  · exact modU_lawful ht

theorem framePackets_lawful {room : Nat} {l : List Packet} (h : Lawful s₀ s) : Lawful s₀ (framePackets room l s).2 := by
  induction l generalizing room s with
  | nil => exact h.trans {}
  | cons p l ih =>
    unfold framePackets
    split
    · exact ih (h.trans {})
    split
    · refine ih ?_
      unfold countPlaced
      split
      · exact countBytes_lawful h fun _ => attributeDown_law
      · exact h
    · exact h.trans {}

theorem finishFrame_lawful {n : Nat} {mark : Bool} {orders : List PuOrder} {missed : List Serial} (h : Lawful s₀ s) :
    Lawful s₀ (finishFrame n mark orders missed s) := by
  have h1 := framePackets_lawful (room := packetArea (planEntries s) orders) (l := s.tli.stream) h
  unfold finishFrame
  simp only
  exact h1.trans {}

theorem assembleFrame_lawful {missed : List Serial} (h : Lawful s₀ s) : Lawful s₀ (assembleFrame missed s) :=
  finishFrame_lawful (planRound_lawful (lowerHolds_lawful (carryOrders_lawful (purgeOrders_lawful h))))

theorem latchTests_lawful (h : Lawful s₀ s) : Lawful s₀ (latchTests s) := by
  refine h.trans { pair := ?_ }
  rintro ⟨hnodup, hmem, hpend, -⟩ hc
  refine ⟨⟨hnodup, hmem, hpend, fun he => ?_⟩, hc⟩
  have : restartTest s = true := he
  simp only [restartTest, Bool.and_eq_true, beq_iff_eq, List.all_eq_true] at this
  exact ⟨this.1, fun u => this.2 u (List.mem_finRange u)⟩

theorem roundStep_lawful {missed : List Serial} (h : Lawful s₀ s) : Lawful s₀ (roundStep missed s) :=
  latchTests_lawful (restepAfter_lawful (assembleFrame_lawful (tickCounts_lawful (scTick_lawful (flushDue_lawful h)))))

end

/-! ### Every command -/

/-- A command that a held reset turns away is lawful when its effect is. -/
theorem unlessHeld_lawful {f : State → State} {s t : State} (h : unlessHeld f s = .next t) (hf : Lawful s (f s)) : Lawful s t := by
  simp only [unlessHeld, Host.Outcome.next.injEq] at h
  subst h
  split
  · exact .refl s
  · exact hf

/-- Every command but RESET_RELEASE and NOTICE_SENT keeps the laws, and no record leaves RETIRING. -/
theorem exec_lawful {c : Instr} {s t : State} (hrelease : ∀ pins causes, c ≠ .resetRelease pins causes) (hsent : c ≠ .noticeSent)
    (h : exec c s = .next t) : Lawful s t := by
  have r := Lawful.refl s
  cases c with
  | resetRelease pins causes => exact absurd rfl (hrelease pins causes)
  | roundMarker missed => exact unlessHeld_lawful h (roundStep_lawful r)
  | intervalClose => exact unlessHeld_lawful h (intervalStep_lawful r)
  | loadEntryAgeOut peer => exact unlessHeld_lawful h (loadAgeOutStep_lawful r)
  | discoveryResponse round burst => exact unlessHeld_lawful h (discoveryStep_lawful r)
  | strangerAgeOut serial => exact unlessHeld_lawful h (strangerStep_lawful r)
  | burstClassify round unit found => exact unlessHeld_lawful h (burstStep_lawful r)
  | rangingAttempt round unit found => exact unlessHeld_lawful h (rangingStep_lawful r)
  | darkSample round readings => exact unlessHeld_lawful h (darkStep_lawful r)
  | holdoffExpiry => exact unlessHeld_lawful h (holdoffStep_lawful r)
  | stepReoffer => exact unlessHeld_lawful h (stepReofferStep_lawful r)
  | hushFlagsCleared => exact unlessHeld_lawful h (hushClearStep_lawful r)
  | guardSample round unit readings => exact unlessHeld_lawful h (guardStep_lawful r)
  | tailSpanExpiry unit => exact unlessHeld_lawful h (tailSpanStep_lawful r)
  | barSerialReoffer serial => exact unlessHeld_lawful h (barSerialStep_lawful r)
  | claimSettleExpiry unit => exact unlessHeld_lawful h (settleStep_lawful r)
  | assignReoffer unit => exact unlessHeld_lawful h (assignStep_lawful r)
  | lostHoldExpiry unit => exact unlessHeld_lawful h (lostHoldStep_lawful r)
  | dropUnitReoffer unit => exact unlessHeld_lawful h (dropUnitStep_lawful r)
  | coolingExpiry unit => exact unlessHeld_lawful h r
  | claimRefreshExpiry unit => exact unlessHeld_lawful h (refreshStep_lawful r)
  | claimReoffer serial => exact unlessHeld_lawful h (claimReofferStep_lawful r)
  | noticeReceived heard bytes => exact unlessHeld_lawful h (receiveStep_lawful r)
  | orderUnknownKind head kind => exact unlessHeld_lawful h (receiveOrder_lawful r)
  | settings head fields => exact unlessHeld_lawful h (receiveOrder_lawful r)
  | permit head serial codes => exact unlessHeld_lawful h (receiveOrder_lawful r)
  | withdraw head serial => exact unlessHeld_lawful h (receiveOrder_lawful r)
  | revoke head serial => exact unlessHeld_lawful h (receiveOrder_lawful r)
  | profile head serial codes => exact unlessHeld_lawful h (receiveOrder_lawful r)
  | band head band => exact unlessHeld_lawful h (receiveOrder_lawful r)
  | take head => exact unlessHeld_lawful h (receiveOrder_lawful r)
  | alarmClear head kind => exact unlessHeld_lawful h (receiveOrder_lawful r)
  | unbar head serial => exact unlessHeld_lawful h (receiveOrder_lawful r)
  | restart head => exact unlessHeld_lawful h (receiveOrder_lawful r)
  | restartEnd => exact unlessHeld_lawful h (restartEndStep_lawful r)
  | claimNotice head serial level kind => exact unlessHeld_lawful h (claimStep_lawful r)
  | releasedClaimNotice head serial level => exact unlessHeld_lawful h (releasedStep_lawful r)
  | claimEntryExpiry serial peer => exact unlessHeld_lawful h (claimExpiryStep_lawful r)
  | barNotice head serial reason => exact unlessHeld_lawful h (barStep_lawful r)
  | barReoffer serial => exact unlessHeld_lawful h (barReofferStep_lawful r)
  | loadNotice head body => exact unlessHeld_lawful h (loadStep_lawful r)
  | presenceNotice head cause reach => exact unlessHeld_lawful h (presenceStep_lawful r)
  | presenceReoffer => exact unlessHeld_lawful h (presenceReofferStep_lawful r)
  | listenEnd => exact unlessHeld_lawful h (listenStep_lawful r)
  | enlistExpiry => exact unlessHeld_lawful h (enlistStep_lawful r)
  | transmitStart recessive => exact unlessHeld_lawful h (transmitStep_lawful r)
  | arbitrationLost => exact unlessHeld_lawful h (r.trans {})
  | lineFault => exact unlessHeld_lawful h (faultStep_lawful r)
  | noticeSent => exact absurd rfl hsent
  | usagePacingRetry => exact unlessHeld_lawful h (pacingStep_lawful r)
  | alarmReoffer kind => exact unlessHeld_lawful h (alarmReofferStep_lawful r)
  | downstreamPacketArrival tag data =>
    refine unlessHeld_lawful h ?_
    unfold packetStep
    split
    · exact r
    · exact r.trans {}
  | resetHeld =>
    obtain rfl := Host.Outcome.next.inj h
    exact r.trans {}
  | puPoweredDown serial =>
    obtain rfl := Host.Outcome.next.inj h
    exact r.trans {}

/-! ### The report of a sent notice (R146, R177) -/

/-- The report of a sent usage notice that finds its snapshot final (R36, R146). -/
def FinalSent (b : UsageBody) (s : State) : Prop := ∃ p, usageMatch b s = some p ∧ p.isFinal = true

/-- Unless it finds its snapshot final, the report of a sent usage notice is lawful. -/
theorem usageSent_lawful {s₀ s : State} {b : UsageBody} (h : Lawful s₀ s) (hb : ¬FinalSent b (oneOutLess s)) :
    Lawful s₀ (usageSent b s) := by
  have h1 := oneOutLess_lawful h
  unfold usageSent
  simp only
  split
  · exact pace_lawful h1
  next p hp =>
    rw [if_neg (fun hf => hb ⟨p, hp, hf⟩)]
    obtain ⟨hsnap, -⟩ := usageMatch_snapshot hp
    have h2 : Lawful s₀ (modA b.unit (fun a => { a with snapshot := none }) (oneOutLess s)) :=
      modA_lawful h1 (fun ⟨hlive, _⟩ => ⟨hlive, fun _ hq => by cases hq⟩) (fun _ _ ⟨_, hq, _⟩ => by cases hq)
    split
    next hclose =>
      exact pace_lawful (makeFinal_lawful h2 fun hr hc => (h1.pair hr hc).2 b.unit p hsnap (.inr hclose))
    next => exact pace_lawful h2

/-- The report of a final snapshot's notice keeps the laws, and frees its RETIRING record (R36). -/
theorem usageSent_final {s : State} {b : UsageBody} (hb : FinalSent b (oneOutLess s)) :
    KeepsLaws s (usageSent b s) ∧ usageSent b s = pace (freeRetired b.unit (oneOutLess s)) := by
  obtain ⟨p, hp, hfin⟩ := hb
  have he : usageSent b s = pace (freeRetired b.unit (oneOutLess s)) := by simp [usageSent, hp, hfin]
  obtain ⟨hsnap, -⟩ := usageMatch_snapshot hp
  refine ⟨?_, he⟩
  rw [he]
  exact ((oneOutLess_lawful (.refl s)).toKeepsLaws.trans (freeRetired_keepsLaws fun hc => hc b.unit p hsnap (.inl hfin))).trans
    (pace_lawful (.refl _)).toKeepsLaws

/-- The state once the slot has been emptied by a report (R177). -/
def emptySlot (s : State) : State := { s with sbp := { s.sbp with slot := none } }

theorem emptySlot_lawful {s₀ s : State} (h : Lawful s₀ s) : Lawful s₀ (emptySlot s) := h.trans {}

/-- The body of the usage notice being sent, if its report finds the snapshot final (R36, R146, R177). -/
def SendsFinal (b : UsageBody) (s : State) : Prop :=
  ∃ m v, s.sbp.slot = some ⟨m, true⟩ ∧ m.body = .usage v (some b) ∧ FinalSent b (oneOutLess (emptySlot s))

/-- NOTICE_SENT frees the record of a final snapshot, and is otherwise lawful (R146, R177). -/
theorem sentStep_cases (s : State) :
    Lawful s (sentStep s)
      ∨ ∃ b, SendsFinal b s ∧ KeepsLaws s (sentStep s)
          ∧ sentStep s = pace (freeRetired b.unit (oneOutLess (emptySlot s))) := by
  have h := emptySlot_lawful (.refl s)
  unfold sentStep
  split
  · exact .inl (.refl s)
  next m hm =>
    rw [sendingNotice_eq_some_iff] at hm
    show Lawful s (reportSent m (emptySlot s)) ∨ ∃ b, SendsFinal b s ∧ KeepsLaws s (reportSent m (emptySlot s))
      ∧ reportSent m (emptySlot s) = _
    unfold reportSent
    split
    · left
      unfold claimingSent
      split
      · exact modU_lawful h
      · exact h
    next v b hb =>
      by_cases hfin : FinalSent b (oneOutLess (emptySlot s))
      · obtain ⟨hk, he⟩ := usageSent_final hfin
        exact .inr ⟨b, ⟨m, v, hm, hb, hfin⟩, h.toKeepsLaws.trans hk, he⟩
      · exact .inl (usageSent_lawful h hfin)
    · exact .inl h

/-! ### The laws at reset (0.6.7, R196) -/

section
variable {pins : Straps} {cause : ResetCause} {pending : List Instr} {pus : PuTable} {k : Nat}

@[simp] theorem getU_released (u : UnitNo) : getU u (State.released pins cause pending pus k) = UnitRecord.blank := by
  simp [getU, State.released, Vector.get_eq_getElem]

@[simp] theorem getE_released (u : UnitNo) : getE u (State.released pins cause pending pus k) = EcUnit.blank := by
  simp [getE, State.released, Vector.get_eq_getElem]

@[simp] theorem getA_released (u : UnitNo) : getA u (State.released pins cause pending pus k) = Account.blank := by
  simp [getA, State.released, Vector.get_eq_getElem]

@[simp] theorem getK_released (j : AlarmKind) : getK j (State.released pins cause pending pus k) = AlarmRecord.clear := by
  simp [getK, State.released, Vector.get_eq_getElem]

/-- The laws hold in a part just released from reset. -/
structure MeetsLaws (s : State) : Prop where
  queue     : QueueLaw s
  outbox    : OutboxLaw s
  enrolment : EnrolmentListLaw s
  district  : DistrictListLaw s
  factor    : FactorLaw s
  alarm     : AlarmLaw s
  serial    : SerialLaw s
  ranging   : RangingLaw s
  closing   : ClosingLaw s
  credit    : CreditLaw s
  counter   : CounterLaw s

theorem released_meetsLaws : MeetsLaws (State.released pins cause pending pus k) where
  queue := ⟨by simp [State.released], List.Pairwise.nil⟩
  outbox := ⟨by simp [State.released], by simp [State.released, usageHeld, NoticeBody.cls], List.pairwise_singleton _ _⟩
  enrolment := ⟨by simp [State.released], List.nodup_nil, by simp [State.released], List.nodup_nil⟩
  district := ⟨by simp [State.released], List.nodup_nil, by simp [State.released], List.nodup_nil⟩
  factor := ⟨by simp [State.released], by simp [State.released]⟩
  alarm j := by rw [getK_released]; simp [AlarmRecordLaw, AlarmRecord.clear]
  serial := by
    refine ⟨fun u _ => ?_, fun u v x hx => ?_, fun u x hu => ?_⟩
    · rw [getU_released]; rfl
    · rw [getU_released] at hx; cases hx
    · rw [getU_released] at hu; cases hu
  ranging := by
    refine ⟨List.nodup_nil, fun u => ?_, fun u hu => ?_, fun he => by cases he⟩
    · rw [getU_released]
      simp [State.released, UnitRecord.blank]
    · rw [getE_released] at hu; cases hu
  closing u p hp := by rw [getA_released] at hp; cases hp
  credit u := by rw [getU_released]; exact Nat.zero_le _
  counter u := by
    show AccountCounts _
    rw [getA_released]
    exact accountBlank_counts

end

theorem KeepsLaws.of_meetsLaws {s t : State} (h : MeetsLaws t) : KeepsLaws s t where
  queue _ := h.queue
  outbox _ := h.outbox
  enrolment _ := h.enrolment
  district _ := h.district
  factor _ := h.factor
  alarm _ := h.alarm
  serial _ := h.serial
  credit _ := h.credit
  counter _ := h.counter
  pair _ _ := ⟨h.ranging, h.closing⟩

/-- Every command keeps the laws. -/
theorem exec_keepsLaws {c : Instr} {s t : State} (h : exec c s = .next t) : KeepsLaws s t := by
  by_cases hsent : c = .noticeSent
  · subst hsent
    have ht : t = if s.held then s else sentStep s := (Host.Outcome.next.inj h).symm
    subst ht
    split
    · exact (Lawful.refl s).toKeepsLaws
    · rcases sentStep_cases s with hl | ⟨b, -, hk, -⟩
      · exact hl.toKeepsLaws
      · exact hk
  · by_cases hrelease : ∃ pins causes, c = .resetRelease pins causes
    · obtain ⟨pins, causes, rfl⟩ := hrelease
      obtain rfl := Host.Outcome.next.inj h
      exact .of_meetsLaws released_meetsLaws
    · exact (exec_lawful (fun pins causes hc => hrelease ⟨pins, causes, hc⟩) hsent h).toKeepsLaws

/-- Every step keeps the laws. -/
theorem step_keepsLaws {s t : State} (h : step s = .next t) : KeepsLaws s t := by
  unfold step at h
  split at h
  · obtain rfl := Host.Outcome.next.inj h
    exact (Lawful.refl _).toKeepsLaws
  next c rest _ =>
    have k : KeepsLaws s { s with pending := rest } := {}
    exact k.trans (exec_keepsLaws h)

/-! ### The statements -/

/-- Settles O56: the serial part of `step_keepsLaws`. -/
theorem serialLawIsKept : Obligations.SerialLawIsKept :=
  fun _ _ hs h => (step_keepsLaws h).serial hs

/-- Settles O57: the two laws go together, since a close pending is left by the record's state alone. -/
theorem rangingAndClosingLawsAreKept : Obligations.RangingAndClosingLawsAreKept :=
  fun _ _ hr hc h => (step_keepsLaws h).pair hr hc

/-- Settles O55. -/
theorem listAndAlarmLawsAreKept : Obligations.ListAndAlarmLawsAreKept := by
  intro s t h
  have k := step_keepsLaws h
  exact ⟨k.queue, k.outbox, k.enrolment, k.district, k.factor, k.alarm⟩

/-- Settles O58. -/
theorem creditAndCounterLawsAreKept : Obligations.CreditAndCounterLawsAreKept :=
  fun _ _ h => ⟨(step_keepsLaws h).credit, (step_keepsLaws h).counter⟩

/-- Settles O59. -/
theorem resetMeetsTheLaws : Obligations.ResetMeetsTheLaws := by
  have h : MeetsLaws State.reset := released_meetsLaws
  exact ⟨h.queue, h.outbox, h.enrolment, h.district, h.factor, h.alarm, h.serial, h.ranging, h.closing, h.credit, h.counter⟩

/-- Settles O60: every other command is lawful, and NOTICE_SENT frees the one record whose final snapshot was sent. -/
theorem retiringEndsWithTheFinalNotice : Obligations.RetiringEndsWithTheFinalNotice := by
  intro c s t u hr hc h hu ht
  by_cases hrelease : ∃ pins causes, c = .resetRelease pins causes
  · exact .inl hrelease
  right
  by_cases hsent : c = .noticeSent
  case neg =>
    have hl := exec_lawful (fun pins causes hcc => hrelease ⟨pins, causes, hcc⟩) hsent h
    exact absurd (hl.retiring hr hc u hu) ht
  subst hsent
  refine ⟨rfl, ?_⟩
  have hexec : t = if s.held then s else sentStep s := (Host.Outcome.next.inj h).symm
  split at hexec
  case isTrue => exact absurd (hexec ▸ hu) ht
  case isFalse =>
  subst hexec
  rcases sentStep_cases s with hl | ⟨b, ⟨m, v, hm, hb, p, hp, hfin⟩, -, he⟩
  · exact absurd (hl.retiring hr hc u hu) ht
  obtain ⟨hsnap, hline, hserial, htake⟩ := usageMatch_snapshot hp
  have hbase : ∀ z, getU z (oneOutLess (emptySlot s)) = getU z s := fun _ => rfl
  obtain ⟨w, d, hfree⟩ := getU_freeRetired b.unit u (oneOutLess (emptySlot s))
  have hut : getU u (sentStep s) = getU u (freeRetired b.unit (oneOutLess (emptySlot s))) := by
    rw [he]
    exact (pace_reports _).getU u
  by_cases hbu : b.unit = u
  · subst hbu
    rw [if_pos rfl] at hfree
    exact ⟨by rw [hut, hfree]; rfl, m, v, b, p, hm, hb, rfl, hsnap, hfin, hline, hserial, htake⟩
  · rw [if_neg hbu, hbase] at hfree
    exact absurd (by rw [hut, hfree]; exact hu) ht

end Sys2Proof.Machine

/-!
PROOFS. The machine's step and its resets (O1 to O3), the downstream order queue (O8), and the UCB's orders
(O34, O35).
-/
namespace Sys2Proof.Machine

-- One proof after another, as in the tests: side by side, the proofs of one text hold more stacks than the check's memory has room for.
set_option Elab.async false

/-! ### The machine and its resets -/

/-- Settles O1: the two equations of `step`. -/
theorem stepRunsFrontCommand : Obligations.StepRunsFrontCommand := by
  unfold Obligations.StepRunsFrontCommand
  intro s
  refine ⟨fun c rest h => ?front, fun h => ?idle⟩
  case front => simp only [step, h]
  case idle => simp only [step, h]

theorem resetCause_first_cases (c : ResetCauses) :
    (c.powerOn = true → ResetCause.first c = .powerOn)
      ∧ (c.powerOn = false → c.brownOut = true → ResetCause.first c = .brownOut)
      ∧ (c.powerOn = false → c.brownOut = false → ResetCause.first c = .resetPin) := by
  unfold ResetCause.first
  refine ⟨fun h => by simp [h], fun h k => by simp [h, k], fun h k => by simp [h, k]⟩

/-- The own entry of the load table is the only one present after a reset (R153). -/
theorem loads_released (pins : Straps) (cause : ResetCause) (pending : List Instr) (pus : PuTable) (n : Nat) (k : TreeStation) :
    (State.released pins cause pending pus n).dv.loads.get k = { load := 0, age := 0, present := decide (k = pins.station) } := by
  simp only [State.released, vector_get_set]
  split
  case isTrue h => simp [h]
  case isFalse h => simp [Vector.get_eq_getElem, Ne.symm h]

/-- Settles O2: each named item is a field of `State.released`. -/
theorem resetReleaseLeavesResetValues : Obligations.ResetReleaseLeavesResetValues := by
  unfold Obligations.ResetReleaseLeavesResetValues
  intro pins causes s
  obtain ⟨hpower, hbrown, hpin⟩ := resetCause_first_cases causes
  refine ⟨State.released pins (ResetCause.first causes) s.pending s.pus s.freeIndex, rfl, rfl, rfl, rfl, hpower, hbrown,
    fun h k _ => hpin h k, ?_⟩
  refine ⟨rfl, rfl, rfl, rfl, rfl, rfl, rfl, rfl, rfl, rfl, rfl, fun u => ?unit, fun u => ?enrolment, fun u => ?account, rfl, rfl,
    rfl, rfl, rfl, rfl, rfl, rfl, rfl, rfl, rfl, rfl, rfl, rfl, rfl, rfl, rfl, rfl, rfl, rfl, fun k => ?load, rfl, rfl, rfl, rfl, rfl,
    fun k => getK_released k⟩
  case unit => rw [getU_released]; exact ⟨rfl, rfl, rfl, rfl, rfl, rfl, rfl, rfl⟩
  case enrolment => rw [getE_released]; exact ⟨rfl, rfl, rfl⟩
  case account => rw [getA_released]; exact ⟨rfl, rfl, rfl⟩
  case load => rw [loads_released]; simp

theorem unlessHeld_of_held {s : State} (hs : s.held = true) (f : State → State) : unlessHeld f s = .next s := by
  simp [unlessHeld, hs]

/-- No command but a release acts under a held reset: RESET_HELD finds the slot empty already, and a premises unit's power is its
own (R196). -/
theorem exec_of_held {c : Instr} {s : State} (hs : s.held = true) (hslot : s.sbp.slot = none)
    (hc : ∀ pins causes, c ≠ .resetRelease pins causes) :
    ∃ v, exec c s = .next v ∧ v.tli = s.tli ∧ v.sbp = s.sbp ∧ v.held = true := by
  cases c
  case resetRelease pins causes => exact absurd rfl (hc pins causes)
  case resetHeld => exact ⟨_, rfl, rfl, by simp only [resetHeldStep, ← hslot], rfl⟩
  case puPoweredDown x => exact ⟨_, rfl, rfl, rfl, hs⟩
  all_goals exact ⟨s, unlessHeld_of_held hs _, rfl, rfl, hs⟩

/-- Settles O3. -/
theorem heldResetSilencesThePart : Obligations.HeldResetSilencesThePart := by
  unfold Obligations.HeldResetSilencesThePart
  intro s
  exact ⟨resetHeldStep s, rfl, rfl, fun c hc => exec_of_held rfl rfl hc⟩

/-! ### The downstream order queue (R8, R9, R12) -/

/-- A list sorted by a key is its entries up to a value, and then those above it. -/
theorem filter_append_filter_of_sorted {α : Type} (key : α → Nat) (k : Nat) {l : List α}
    (h : l.Pairwise (fun a b => key a ≤ key b)) :
    l.filter (fun a => decide (key a ≤ k)) ++ l.filter (fun a => decide (k < key a)) = l := by
  induction l with
  | nil => rfl
  | cons a l ih =>
    obtain ⟨hhead, htail⟩ := List.pairwise_cons.mp h
    by_cases ha : key a ≤ k
    · simp only [List.filter_cons, ha, decide_true, if_true, Nat.not_lt.mpr ha, decide_false, List.cons_append]
      simpa using ih htail
    · have hlow : l.filter (fun b => decide (key b ≤ k)) = [] :=
        List.filter_eq_nil_iff.mpr fun b hb => by have := hhead b hb; simp only [decide_eq_true_eq]; omega
      have hhigh : l.filter (fun b => decide (k < key b)) = l :=
        List.filter_eq_self.mpr fun b hb => by have := hhead b hb; simp only [decide_eq_true_eq]; omega
      simp [ha, hlow, hhigh, Nat.not_le.mp ha]

/-- Where a join puts its order in a queue that stands in the order of its groups (R9). -/
theorem enqueue_split {x : QueuedOrder} {q : List QueuedOrder} (h : InGroups q) :
    ∃ a b, enqueue x q = a ++ x :: b ∧ a ++ b = q ∧ (∀ y ∈ a, orderGroup y.order ≤ orderGroup x.order)
      ∧ (∀ y ∈ b, orderGroup x.order < orderGroup y.order) := by
  refine ⟨_, _, rfl, filter_append_filter_of_sorted (fun y : QueuedOrder => orderGroup y.order) _ h, fun y hy => ?_, fun y hy => ?_⟩
  · exact of_decide_eq_true (List.mem_filter.mp hy).2
  · exact of_decide_eq_true (List.mem_filter.mp hy).2

/-- Settles O8. -/
theorem offeredOrderJoinsItsGroup : Obligations.OfferedOrderJoinsItsGroup := by
  unfold Obligations.OfferedOrderJoinsItsGroup
  refine ⟨fun p o s hs => ?offer, fun p which s => ?withdrawal⟩
  case offer =>
    rcases offerOrder_cases p o s with ⟨hroom, he⟩ | ⟨hfull, he⟩ <;> rw [he]
    · exact ⟨fun _ => enqueue_split hs.2, fun h => absurd h (Nat.ne_of_lt hroom)⟩
    · exact ⟨fun h => absurd h (Nat.not_lt.mpr hfull), fun _ => rfl⟩
  case withdrawal =>
    refine ⟨_, _, rfl, withdrawOrders_frame p which s, withdrawOrders_sublist p which s, fun q => ?_, withdrawOrders_count p which s⟩
    simp only [withdrawn, List.mem_filter, Bool.not_eq_true', Bool.and_eq_false_iff, beq_eq_false_iff_ne,
      not_and_or, Bool.not_eq_true]

/-! ### The UCB's orders (R136, R141, R142) -/

theorem bandOrder_done {k : Byte} {b : Band} (h : k.toNat = b.val) (s : State) :
    bandOrder k s = ({ s with ucb := { s.ucb with band := b } }, .done) := by
  have hk : k.toNat < 4 := h ▸ b.isLt
  rw [bandOrder, dif_pos hk]
  simp only [h]

theorem bandOrder_badField {k : Byte} (h : 4 ≤ k.toNat) (s : State) : bandOrder k s = (s, .badField) := by
  simp [bandOrder, Nat.not_lt.mpr h]

/-- Settles O35. -/
theorem bandSetsTheCurrentBand : Obligations.BandSetsTheCurrentBand := by
  unfold Obligations.BandSetsTheCurrentBand
  intro h k s ht
  have key : ∀ {t out}, bandOrder k s = (t, out) → exec (.band h k) s = .next (answered h 6 out .none t) := fun ho =>
    receivePlain_of_taken (o := .band k) ht (by rw [ownerActs, ho])
  exact ⟨fun b hb => key (bandOrder_done hb s), fun hk => key (bandOrder_badField hk s)⟩

/-- An order that passes the filter has the effect of R179's steps and is answered. -/
theorem receive_of_heeded {h : OrderHead} {s t : State} {o : Order} {out : AnswerOutcome} {data : KindData} (hs : s.held = false)
    (hh : Heeded h s) (he : orderEffect o s = (t, out, data)) :
    unlessHeld (receiveOrder h o) s = .next (answered h o.kindByte out data t) := by
  rw [unlessHeld_of_not_held hs]
  simp [receiveOrder, addressed_of_heeded hh, sourceAllowed_of_heeded hh, he, answered, answerTo]

/-- What a take leaves of one account (R141). -/
theorem getA_foldl_takeUnit {l : List UnitNo} (hl : l.Nodup) (s : State) (v : UnitNo) :
    getA v (l.foldl (fun t u => takeUnit u t) s)
      = if v ∈ l ∧ takesNow s v = true then takeSnapshot (getU v s).disputed (getA v s) else getA v s := by
  induction l generalizing s with
  | nil => simp
  | cons u l ih =>
    obtain ⟨hu, hl⟩ := List.nodup_cons.mp hl
    have hU : getU v (takeUnit u s) = getU v s := by unfold takeUnit; split <;> rfl
    have hA : getA v (takeUnit u s)
        = if u = v ∧ takesNow s u = true then takeSnapshot (getU u s).disputed (getA u s) else getA v s := by
      unfold takeUnit
      by_cases ht : takesNow s u = true
      · simp [ht, getA_modA]
      · simp [ht]
    rw [List.foldl_cons, ih hl, hU, hA]
    by_cases huv : u = v
    · subst huv
      simp [hu]
    · have hT : takesNow (takeUnit u s) v = takesNow s v := by
        unfold takesNow
        rw [hU, hA]
        simp [huv]
      simp [huv, Ne.symm huv, hT]

theorem foldl_takeUnit_frame (l : List UnitNo) (s : State) :
    (l.foldl (fun t u => takeUnit u t) s).ut = s.ut ∧ (l.foldl (fun t u => takeUnit u t) s).ucb.band = s.ucb.band := by
  induction l generalizing s with
  | nil => exact ⟨rfl, rfl⟩
  | cons u l ih =>
    obtain ⟨hut, hband⟩ := ih (takeUnit u s)
    rw [List.foldl_cons, hut, hband]
    unfold takeUnit
    split <;> exact ⟨rfl, rfl⟩

theorem mem_allUnits (u : UnitNo) : u ∈ allUnits := List.mem_finRange u

theorem allUnits_nodup : allUnits.Nodup := List.nodup_finRange 64

/-- Settles O34: the order has its effect in SERVING and in RESTARTING, and pacing moves only where a snapshot stands. -/
theorem takeCopiesTheLiveSets : Obligations.TakeCopiesTheLiveSets := by
  unfold Obligations.TakeCopiesTheLiveSets
  intro h s hs hh hphase
  have he : orderEffect .take s = takeOrder s := by
    rcases hphase with hp | hp <;> simp [orderEffect, isMalformed, hp, whileRestarting, ownerActs]
  refine ⟨takeAll s, receive_of_heeded (o := .take) hs hh he, ?_⟩
  obtain ⟨hut, hband⟩ := foldl_takeUnit_frame allUnits s
  have hA := getA_foldl_takeUnit allUnits_nodup s
  unfold takeAll
  generalize allUnits.foldl (fun t u => takeUnit u t) s = v at *
  have r := pace_reports v
  refine ⟨r.ut.trans hut, r.band.trans hband, fun u => ?_⟩
  specialize hA u
  simp only [mem_allUnits, true_and] at hA
  refine ⟨fun htree hnone => ?taken, fun hskip => ?kept⟩
  case taken =>
    rw [if_pos (by simp [takesNow, takeVisits, htree, hnone])] at hA
    obtain ⟨p, hp, hc⟩ := r.account u (p := _) (congrArg Account.snapshot hA)
    simp only [Snapshot.contents, Snapshot.mk.injEq] at hc
    obtain ⟨hcounters, hno, hfinal, hdisputed, -, hclose⟩ := hc
    have hlive := congrArg Account.live hA
    have htake := congrArg Account.takeNo hA
    exact ⟨(r.live u).trans hlive, (r.takeNo u).trans htake, p, hp, hcounters, hno.trans ((r.takeNo u).trans htake).symm, hfinal,
      hdisputed, hclose⟩
  case kept =>
    have hnot : ¬takesNow s u = true := by
      rcases hskip with hoff | hsome
      · simp [takesNow, takeVisits, hoff]
      · simp [takesNow, hsome]
    rw [if_neg hnot] at hA
    exact ⟨by rw [r.live, hA], by rw [r.takeNo, hA], by rw [r.snapshot, hA]⟩

end Sys2Proof.Machine

/-!
PROOFS. The premises units: a power-down (O11), what a frame does at each of them, and the bursts they transmit (O12).
-/
namespace Sys2Proof.Machine

-- One proof after another, as in the tests: side by side, the proofs of one text hold more stacks than the check's memory has room for.
set_option Elab.async false

/-! ### Lines of the table -/

/-- A premises unit that has a line finds it changed by what changes every line. -/
theorem puLine_of_listed {x : Serial} {t v : PuTable} {f : PuEntry → PuEntry} (hv : v.listed = t.listed.map f)
    (hf : ∀ e, (f e).serial = e.serial) (hx : ∃ e ∈ t.listed, e.serial = x) : puLine x v = f (puLine x t) := by
  obtain ⟨e, he⟩ : ∃ e, t.listed.find? (fun e => e.serial == x) = some e :=
    Option.isSome_iff_exists.mp (by simpa [List.find?_isSome] using hx)
  simp [puLine, hv, List.find?_map, hf, he]

/-- A premises unit without a line is one of the others. -/
theorem puLine_of_not_listed {x : Serial} {t v : PuTable} {f : PuEntry → PuEntry} (hv : v.listed = t.listed.map f)
    (hf : ∀ e, (f e).serial = e.serial) (hx : ∀ e ∈ t.listed, e.serial ≠ x) : puLine x v = ⟨x, v.others, v.othersSend⟩ := by
  have hnone : t.listed.find? (fun e => e.serial == x) = none := by simpa [List.find?_eq_none] using hx
  simp [puLine, hv, List.find?_map, hf, hnone]

/-! ### Power-down (R19) -/

/-- What a power-down writes in the line of one premises unit. -/
def puDark (x : Serial) (e : PuEntry) : PuEntry :=
  if e.serial = x then { e with state := { puDrop e.state with firmHush := false }, sends := [] } else e

theorem puLine_powerDown (x y : Serial) (t : PuTable) : puLine y (puPowerDown x t) = puDark x (puLine y t) := by
  have hmap : (puPowerDown x t).listed = (puList x t).listed.map (puDark x) := rfl
  have hserial : ∀ e, (puDark x e).serial = e.serial := fun e => by unfold puDark; split <;> rfl
  by_cases hy : ∃ e ∈ (puList x t).listed, e.serial = y
  · rw [puLine_of_listed hmap hserial hy, puLine_puList]
  · have hne : ∀ e ∈ (puList x t).listed, e.serial ≠ y := fun e he h => hy ⟨e, he, h⟩
    have hyx : y ≠ x := fun h => hy (h ▸ mem_puList x t)
    have hsame := puLine_of_not_listed (v := puList x t) (f := id) (by simp) (fun _ => rfl) hne
    rw [puLine_puList] at hsame
    rw [puLine_of_not_listed hmap hserial hne, hsame, puDark, if_neg hyx]
    rfl

/-- Settles O11: the line of the premises unit itself, and that of any other. -/
theorem powerDownEndsAFirmHush : Obligations.PowerDownEndsAFirmHush := by
  unfold Obligations.PowerDownEndsAFirmHush
  intro x s
  have hdraw : (puPowerDown x s.pus).draw = s.pus.draw := puList_draw x s.pus
  refine ⟨{ s with pus := puPowerDown x s.pus }, rfl, rfl, ?_, ?_, fun y hy => ⟨?_, ?_⟩⟩
  · simp [puState, puLine_powerDown, puDark, puDrop]
  · simp [puBursts, puLine_powerDown, puDark]
  · simp [puState, puLine_powerDown, puDark, hy]
  · simp [puBursts, puLine_powerDown, puDark, hy, hdraw]

/-! ### A frame at one premises unit (R18 to R20) -/

/-- The table as a frame finds it, with a line for each premises unit that the frame names. -/
def puNamed (f : Frame) (missed : List Serial) (t : PuTable) : PuTable :=
  (f.orders.filterMap orderSerial ++ missed).foldl (fun t x => puList x t) t

theorem puList_keeps (x : Serial) {y : Serial} {t : PuTable} (h : ∃ e ∈ t.listed, e.serial = y) :
    ∃ e ∈ (puList x t).listed, e.serial = y := by
  obtain ⟨e, he, hy⟩ := h
  unfold puList
  split
  · exact ⟨e, he, hy⟩
  · exact ⟨e, List.mem_append_left _ he, hy⟩

/-- A list gives every premises unit that it names a line. -/
theorem mem_foldl_puList {l : List Serial} {t : PuTable} {y : Serial} (hy : y ∈ l ∨ ∃ e ∈ t.listed, e.serial = y) :
    ∃ e ∈ (l.foldl (fun t x => puList x t) t).listed, e.serial = y := by
  induction l generalizing t with
  | nil => exact hy.resolve_left (List.not_mem_nil)
  | cons x l ih =>
    refine ih ?_
    rcases hy with hy | hy
    · rcases List.mem_cons.mp hy with rfl | hy
      · exact .inr (mem_puList _ _)
      · exact .inl hy
    · exact .inr (puList_keeps x hy)

/-- An order that does not name a premises unit acts on it as on the others. -/
theorem puOrder_unnamed {x : Serial} {o : PuOrder} (ho : orderSerial o ≠ some x) (p : PuState) :
    puOrder none o p = puOrder (some x) o p := by
  cases o with
  | assign u y q =>
    have hxy : ¬ x = y := fun h => ho (congrArg some h.symm)
    simp [puOrder, puAssign, hxy]
  | barSerial y =>
    have hxy : ¬ x = y := fun h => ho (congrArg some h.symm)
    simp [puOrder, hxy]
  | eqd | hushUnit | speakUnit | hushAll | speakAll | dropUnit => rfl

theorem foldl_puOrder_unnamed {x : Serial} {l : List PuOrder} (h : ∀ o ∈ l, orderSerial o ≠ some x) (p : PuState) :
    l.foldl (fun q o => puOrder none o q) p = l.foldl (fun q o => puOrder (some x) o q) p := by
  induction l generalizing p with
  | nil => rfl
  | cons o l ih =>
    rw [List.foldl_cons, List.foldl_cons, puOrder_unnamed (h o List.mem_cons_self),
      ih fun o ho => h o (List.mem_cons_of_mem _ ho)]

theorem puFrame_unnamed {x : Serial} {f : Frame} (h : ∀ o ∈ f.orders, orderSerial o ≠ some x) (p : PuState) :
    puFrame none f p = puFrame (some x) f p := by
  unfold puFrame
  split
  · exact foldl_puOrder_unnamed (fun o ho => h o (List.mem_filter.mp ho).1) _
  · exact foldl_puOrder_unnamed h p

/-- A frame acts on the line of every premises unit, listed or not. -/
theorem puLine_receive (f : Frame) (missed : List Serial) (t : PuTable) (x : Serial) :
    puLine x (puReceive f missed t) = puHears f missed (puLine x t) := by
  have hmap : (puReceive f missed t).listed = (puNamed f missed t).listed.map (puHears f missed) := rfl
  by_cases hx : ∃ e ∈ (puNamed f missed t).listed, e.serial = x
  · rw [puLine_of_listed hmap (puHears_serial f missed) hx, puNamed, puLine_foldl_puList]
  · have hne : ∀ e ∈ (puNamed f missed t).listed, e.serial ≠ x := fun e he h => hx ⟨e, he, h⟩
    have hunnamed : x ∉ f.orders.filterMap orderSerial ++ missed := fun h => hx (mem_foldl_puList (.inl h))
    have hmissed : x ∉ missed := fun h => hunnamed (List.mem_append_right _ h)
    have horders : ∀ o ∈ f.orders, orderSerial o ≠ some x := fun o ho h =>
      hunnamed (List.mem_append_left _ (List.mem_filterMap.mpr ⟨o, ho, h⟩))
    have hline : puLine x t = ⟨x, (puNamed f missed t).others, (puNamed f missed t).othersSend⟩ := by
      rw [← puLine_of_not_listed (v := puNamed f missed t) (f := id) (by simp) (fun _ => rfl) hne, puNamed, puLine_foldl_puList]
    rw [puLine_of_not_listed hmap (puHears_serial f missed) hne, hline, puHears,
      if_neg (by simpa using hmissed)]
    simp only [PuEntry.mk.injEq, true_and]
    exact ⟨puFrame_unnamed horders _, rfl⟩

section
variable {f : Frame} {missed : List Serial} {t : PuTable} {x : Serial}

theorem puLine_receive_missed (hx : x ∈ missed) :
    puLine x (puReceive f missed t) = { puLine x t with sends := [] } := by
  rw [puLine_receive, puHears, if_pos (by simpa using hx)]

theorem puLine_receive_heard (hx : x ∉ missed) :
    puLine x (puReceive f missed t) = ⟨x, puFrame (some x) f (puState x t), puSends f (puState x t)⟩ := by
  rw [puLine_receive, puHears, if_neg (by simpa using hx), puLine_serial]
  rfl

end

/-! ### What it sends (R18) -/

theorem puSends_marked {f : Frame} (hm : f.mark = true) (p : PuState) : puSends f p = [] := by simp [puSends, hm]

theorem puSends_hushed {f : Frame} {p : PuState} (hp : p.softHush = true ∨ p.firmHush = true) : puSends f p = [] := by
  have hquiet : ∀ e, puAnswers p e = none := fun e => by
    rcases hp with h | h <;> simp [puAnswers, puMaySpeak, h]
  simp [puSends, hquiet]

/-- A list through a function that gives a value where a test holds. -/
theorem filterMap_ite {α β : Type} (p : α → Bool) (g : α → β) (l : List α) :
    l.filterMap (fun a => if p a = true then some (g a) else none) = (l.filter p).map g := by
  induction l with
  | nil => rfl
  | cons a l ih => by_cases h : p a = true <;> simp [h, ih]

section
variable {f : Frame} {p : PuState}

theorem puSends_unnumbered (hm : f.mark = false) (hs : p.softHush = false) (hf : p.firmHush = false) (hu : p.unit = none) :
    puSends f p = (f.entries.filter (fun e => e.kind == .discovery)).map .response := by
  have hanswer : puAnswers p = fun e => if (e.kind == .discovery) = true then some (.response e) else none := by
    funext e
    simp [puAnswers, puMaySpeak, hs, hf, hu]
  rw [puSends, if_neg (by simp [hm]), hanswer, filterMap_ite]

theorem puSends_without_eqd {u : UnitNo} (hu : p.unit = some u) (hq : p.eqd = none) : puSends f p = [] := by
  have hanswer : ∀ e, puAnswers p e = none := fun e => by simp [puAnswers, hu, hq]
  simp [puSends, hanswer]

theorem puSends_numbered {u : UnitNo} {q : Nat} (hm : f.mark = false) (hs : p.softHush = false) (hf : p.firmHush = false)
    (hu : p.unit = some u) (hq : p.eqd = some q) :
    puSends f p = (f.entries.filter (fun e => e.kind != .discovery && e.unit == u.val)).map
      (fun e => .burst u e (q + 32 * e.start)) := by
  have hanswer : puAnswers p = fun e =>
      if (e.kind != .discovery && e.unit == u.val) = true then some (.burst u e (q + 32 * e.start)) else none := by
    funext e
    simp [puAnswers, puMaySpeak, hs, hf, hu, hq]
  rw [puSends, if_neg (by simp [hm]), hanswer, filterMap_ite]

end

/-! ### A marked frame (R20) -/

/-- BAR_SERIAL orders leave the number, the EqD and the soft hush cleared, and bring a firm hush to the unit they name. -/
theorem foldl_barOrders (x : Serial) (l : List PuOrder) {p : PuState} (hu : p.unit = none) (hq : p.eqd = none)
    (hs : p.softHush = false) : (l.filter isBarOrder).foldl (fun q o => puOrder (some x) o q) p
      = { unit := none, eqd := none, softHush := false, firmHush := p.firmHush || decide (.barSerial x ∈ l) } := by
  induction l generalizing p with
  | nil => cases p; simp_all
  | cons o l ih =>
    by_cases ho : isBarOrder o = true
    · obtain ⟨y, rfl⟩ : ∃ y, o = .barSerial y := by cases o <;> simp_all [isBarOrder]
      simp only [List.filter_cons, ho, if_true, List.foldl_cons]
      by_cases hxy : x = y
      · subst hxy
        rw [ih (by simp [puOrder, puDrop]) (by simp [puOrder, puDrop]) (by simp [puOrder, puDrop, hs])]
        simp [puOrder]
      · have hsame : puOrder (some x) (.barSerial y) p = p := by simp [puOrder, hxy]
        rw [hsame, ih hu hq hs]
        simp [hxy]
    · have hne : ¬ PuOrder.barSerial x = o := fun h => ho (h ▸ rfl)
      simp only [List.filter_cons, ho, if_false, Bool.false_eq_true]
      rw [ih hu hq hs]
      simp [hne]

theorem puFrame_marked {f : Frame} (hm : f.mark = true) (x : Serial) (p : PuState) : puFrame (some x) f p
    = { unit := none, eqd := none, softHush := false, firmHush := p.firmHush || decide (.barSerial x ∈ f.orders) } := by
  rw [puFrame, if_pos hm, foldl_barOrders x f.orders rfl rfl rfl]
  rfl

/-! ### Bursts (R14) -/

theorem standsInOrder (b : PuBurst) : StandsInOrder b := rfl

theorem headerOk_puBurst (start length unit kind report dlen spread : Nat) (payload : List Byte) :
    headerOk (puBurst start length unit kind report dlen spread payload).header = true := by
  simp [headerOk, puBurst, headerBytes]

theorem check_puBurst (start length unit kind report dlen spread : Nat) (payload : List Byte) :
    (puBurst start length unit kind report dlen spread payload).check
      = crcBurst (headerBytes (puBurst start length unit kind report dlen spread payload).header
          ++ [(puBurst start length unit kind report dlen spread payload).header.check] ++ payload) := rfl

theorem puData_length (d : Nat) (x : Serial) (k : Nat) :
    (puData d x k).length ≤ 4 * k ∧ (puData d x k).length ≤ (Config.puWaiting d x).length := by
  simp only [puData, List.length_take]
  omega

theorem puPayload_length (d : Nat) (x : Serial) (k : Nat) : (puPayload d x k).length = 4 * k := by
  have := (puData_length d x k).1
  simp only [puPayload, List.length_append, List.length_map, List.length_range]
  omega

/-- The payload begins with the data that wait. -/
theorem puPayload_take (d : Nat) (x : Serial) (k : Nat) :
    (puPayload d x k).take (puData d x k).length = (Config.puWaiting d x).take (puData d x k).length := by
  rw [puPayload, List.take_left, puData, List.length_take, List.take_eq_take_iff]
  omega

theorem puReport_lt (d : Nat) (x : Serial) (k : Nat) : puReport d x k < 65536 := by
  unfold puReport
  omega

theorem puData_zero (d : Nat) (x : Serial) : puData d x 0 = [] := by simp [puData]

theorem code_lt (k : GrantKind) : k.code < 256 := by cases k <;> decide

/-- A burst under a unit number, whatever the kind of its entry, carries the entry's kind and length. -/
theorem puBurstOf_burst (d : Nat) (x : Serial) (u : UnitNo) (e : GrantEntry) (start : Nat) (he : e.kind ≠ .discovery) :
    ∃ report dlen payload, puBurstOf d x (.burst u e start) = puBurst start e.length u.val e.kind.code report dlen 0 payload := by
  rcases hk : e.kind with _ | _ | _ | _
  case discovery => exact absurd hk he
  all_goals simp only [puBurstOf, hk]; exact ⟨_, _, _, rfl⟩

/-- Settles O12: each clause reads the line that `puLine_receive` gives, an order's row of R19's table, or a field of `puBurst`. -/
theorem frameActsOnPremisesUnits : Obligations.FrameActsOnPremisesUnits := by
  unfold Obligations.FrameActsOnPremisesUnits
  refine ⟨fun f missed t x => ?frame, fun x y u q p => ?orders, fun d x u e start => ⟨?response, ?burst⟩⟩
  case frame =>
    refine ⟨fun hx => ?missed, fun hx hm => ?unmarked, fun hx hm => ?marked⟩
    case missed => simp [puState, puBursts, puLine_receive_missed hx]
    case unmarked =>
      refine ⟨?_, fun hh => ?_, fun hs hf => ⟨fun hu => ?_, fun u hu hq => ?_, fun u q hu hq => ?_⟩⟩
      · rw [puState, puLine_receive_heard hx]
        simp [puFrame, hm]
      · rw [puBursts, puLine_receive_heard hx, puSends_hushed hh]
        rfl
      · rw [puBursts, puLine_receive_heard hx, puSends_unnumbered hm hs hf hu, List.map_map]
        rfl
      · rw [puBursts, puLine_receive_heard hx, puSends_without_eqd hu hq]
        rfl
      · rw [puBursts, puLine_receive_heard hx, puSends_numbered hm hs hf hu hq, List.map_map]
        rfl
    case marked =>
      rw [puBursts, puState, puLine_receive_heard hx, puFrame_marked hm, puSends_marked hm]
      simp
  case orders =>
    refine ⟨fun hf => ?_, fun hf hy => ?_, fun hf hy hu => ?_, fun hy hu => ?_, fun hu => ?_, fun hu => ?_, rfl, rfl, ?_, fun hy => ?_⟩
    · simp [puOrder, puAssign, hf]
    · simp [puOrder, puAssign, hf, hy]
    · simp [puOrder, puAssign, hf, hu, Ne.symm hy, puDrop]
    · simp [puOrder, puAssign, hu, Ne.symm hy]
    · simp [puOrder, hu, puDrop]
    · simp [puOrder, hu]
    · simp [puOrder, puDrop]
    · simp [puOrder, Ne.symm hy]
  case response =>
    rintro b rfl
    have hspread : (Config.puSpread d x).val < 64 := (Config.puSpread d x).isLt
    have hnat : (BitVec.ofNat 8 (Config.puSpread d x).val).toNat = (Config.puSpread d x).val := by
      rw [BitVec.toNat_ofNat]; omega
    refine ⟨standsInOrder _, ?_, ?_, rfl, rfl, rfl, rfl, rfl, rfl, headerOk_puBurst _ _ _ _ _ _ _ _, check_puBurst _ _ _ _ _ _ _ _⟩
    · simp only [puBurstOf, puBurst, hnat]; omega
    · simp only [puBurstOf, puBurst, hnat]
  case burst =>
    rintro b he hb
    obtain ⟨report, dlen, payload, hform⟩ := puBurstOf_burst d x u e start he
    refine ⟨standsInOrder _, ?_⟩
    have hfields : b = puBurst start e.length u.val e.kind.code report dlen 0 payload := hb.trans hform
    have hu : u.val < 256 := by omega
    have hcode := code_lt e.kind
    refine ⟨by rw [hfields]; rfl, by rw [hfields]; rfl, ?_, ?_, by rw [hfields]; rfl, by rw [hfields]; exact headerOk_puBurst _ _ _ _ _ _ _ _,
      by rw [hfields]; exact check_puBurst _ _ _ _ _ _ _ _, fun i => ?_, fun hk => ?_, fun hk => ?_, fun hk => ?_⟩
    · rw [hfields]; simp only [puBurst, BitVec.toNat_ofNat]; omega
    · rw [hfields]; simp only [puBurst, BitVec.toNat_ofNat]; omega
    · rw [hfields]; simp [PuBurst.laserOn, puBurst]
    · obtain ⟨hfit, hwait⟩ := puData_length d x (e.length - 10)
      have hform := hb
      simp only [puBurstOf, hk] at hform
      rw [hform]
      refine ⟨?_, puPayload_length _ _ _, (puData d x (e.length - 10)).length, hfit, hwait, rfl, puPayload_take _ _ _, ?_⟩
      · simp only [puBurst, BitVec.toNat_ofNat]
        exact Nat.le_trans (Nat.mod_le _ _) hfit
      · simp only [puBurst, BitVec.toNat_ofNat]
        rw [Nat.mod_eq_of_lt (puReport_lt _ _ _)]
        rfl
    · have hform := hb
      simp only [puBurstOf, hk] at hform
      rw [hform]
      refine ⟨rfl, rfl, ?_⟩
      simp only [puBurst, BitVec.toNat_ofNat]
      rw [Nat.mod_eq_of_lt (puReport_lt _ _ _), puReport, puData_zero]
      rfl
    · have hform := hb
      simp only [puBurstOf, hk] at hform
      rw [hform]
      exact ⟨rfl, rfl, rfl⟩

end Sys2Proof.Machine

/-!
SUPPORT. What later operations leave of an occurrence and of a notice that stands in the outbox, and what a retirement (R35) and a
direct freeing (R37) amount to: `LeftService`, `FreedDirectly` and `OtherUnitsSame`.
-/
namespace Sys2Proof.Machine

-- One proof after another, as in the tests: side by side, the proofs of one text hold more stacks than the check's memory has room for.
set_option Elab.async false

/-! ### One occurrence, before and after other operations -/

section
variable {k : AlarmKind} {x : Option Serial} {s t v : State}

theorem occurredOnce_of_latched (h : (getK k t).latched = (latchRecord x (getK k s)).latched) : OccurredOnce k s t := by
  obtain ⟨hraised, -, -, hcount⟩ := AlarmRecord.latched_eq_iff.mp h
  exact ⟨hraised.trans (latchRecord_raised x _), hcount.trans latchRecord_count⟩

theorem occurredOnce_occur (hk : k ≠ .outboxOverflow) : OccurredOnce k s (occur k x s) :=
  occurredOnce_of_latched (occur_latched (.inl hk))

theorem OccurredOnce.later (h : OccurredOnce k s t) (hv : getK k v = getK k t) : OccurredOnce k s v := by
  unfold OccurredOnce at *
  rwa [hv]

theorem OccurredOnce.earlier (h : OccurredOnce k t v) (hs : getK k t = getK k s) : OccurredOnce k s v := by
  unfold OccurredOnce at *
  rwa [hs] at h

/-! An alarm notice is of class 0, so no offer evicts one: an offer that is lost touches the record of its own kind and that of
OUTBOX_OVERFLOW alone (R175, R176). -/

theorem getK_noteLost {n : Notice} (hn : ∀ c x, n.body ≠ .alarm k c x) : getK k (noteLost n s) = getK k s := by
  unfold noteLost
  split
  case h_1 j c x hbody =>
    split
    · rw [getK_modK, if_neg]
      rintro rfl
      exact hn c x hbody
    · rfl
  case h_3 => split <;> rfl
  all_goals rfl

/-- What a full outbox gives up is no alarm notice. -/
theorem victimFor_not_alarm {c : Nat} {box : List Notice} {m : Notice} (h : victimFor c box = some m) :
    ∀ j d x, m.body ≠ .alarm j d x := by
  unfold victimFor at h
  split at h
  · split at h
    next hlt =>
      obtain rfl := Option.some.inj h
      intro j d x hbody
      rw [hbody] at hlt
      exact absurd hlt (Nat.not_lt_zero c)
    next => cases h
  · cases h

theorem getK_offerRaw {b : NoticeBody} (hk : k ≠ .outboxOverflow) (hb : ∀ c x, b ≠ .alarm k c x) :
    getK k (offerRaw b s) = getK k s := by
  unfold offerRaw
  simp only
  split
  · rw [getK_overflow_of_ne hk, getK_noteLost hb]
    rfl
  split
  · rfl
  split
  next m hm =>
    rw [getK_overflow_of_ne hk, getK_congr (usageEvicted_alarms _ _), getK_noteLost (victimFor_not_alarm hm k)]
    rfl
  · rfl

theorem getK_paceLoop (hk : k ≠ .outboxOverflow) (fuel : Nat) (s : State) : getK k (paceLoop fuel s) = getK k s := by
  have husage : ∀ u, ∀ c x, NoticeBody.usage u none ≠ .alarm k c x := fun u c x h => by cases h
  induction fuel generalizing s with
  | zero => rfl
  | succ fuel ih =>
    unfold paceLoop
    split
    · split
      · rfl
      · split
        · exact getK_offerRaw hk (husage _)
        · rw [ih, getK_congr (usageTaken_alarms _ _), getK_offerRaw hk (husage _)]
    · rfl

theorem getK_offerPaced {b : NoticeBody} (hk : k ≠ .outboxOverflow) (hb : ∀ c x, b ≠ .alarm k c x) :
    getK k (offerPaced b s) = getK k s := by
  unfold offerPaced
  simp only
  split
  · rw [getK_paceLoop hk, getK_offerRaw hk hb]
  · exact getK_offerRaw hk hb

theorem getK_overflowNotice (hk : k ≠ .outboxOverflow) (before s : State) : getK k (overflowNotice before s) = getK k s := by
  unfold overflowNotice
  split
  · refine getK_offerPaced hk fun c x h => ?_
    injection h with hkind
    exact hk hkind.symm
  · rfl

theorem getK_offerNotice {b : NoticeBody} (hk : k ≠ .outboxOverflow) (hb : ∀ c x, b ≠ .alarm k c x) :
    getK k (offerNotice b s) = getK k s :=
  (getK_overflowNotice hk _ _).trans (getK_offerPaced hk hb)

theorem getK_offerClaim {y : Serial} {l : Nat} {j : ClaimKind} {u : UnitNo} (hk : k ≠ .outboxOverflow) :
    getK k (offerNotice (.claim y l j u) s) = getK k s := getK_offerNotice hk fun _ _ h => by cases h

theorem getK_occur_other {j : AlarmKind} (hk : k ≠ .outboxOverflow) (hj : j ≠ k) : getK k (occur j x s) = getK k s := by
  have hlatch : getK k (latch j x s) = getK k s := by rw [latch, getK_modK, if_neg hj]
  unfold occur
  split
  · rw [getK_offerNotice hk, hlatch]
    intro c y h
    injection h with hkind
    exact hj hkind
  · exact hlatch

theorem getK_pace (hk : k ≠ .outboxOverflow) : getK k (pace s) = getK k s :=
  (getK_overflowNotice hk _ _).trans (getK_paceLoop hk _ _)

theorem getK_saturation {u : UnitNo} {a b : Bool} (hk : k ≠ .outboxOverflow) (hc : k ≠ .counterSaturated) :
    getK k (saturation u a b s) = getK k s := by
  unfold saturation
  split
  · exact getK_occur_other hk hc.symm
  · rfl

theorem getK_queueHeld {u : UnitNo} (hk : k ≠ .outboxOverflow) : getK k (queueHeld u s) = getK k s := by
  unfold queueHeld
  split
  · rfl
  · simp only
    split
    · exact getK_offerClaim hk
    · rw [getK_modU]; exact getK_offerClaim hk

/-- The kinds that the end of a service may raise on its way, besides the one that brings it. -/
def sideKinds : List AlarmKind := [.outboxOverflow, .counterSaturated, .rogueUnlocated]

theorem ne_of_not_sideKind (hk : k ∉ sideKinds) : k ≠ .outboxOverflow ∧ k ≠ .counterSaturated ∧ k ≠ .rogueUnlocated := by
  simpa [sideKinds] using hk

theorem getK_closeBilling {u : UnitNo} (hk : k ∉ sideKinds) : getK k (closeBilling u s) = getK k s := by
  obtain ⟨hover, hsat, -⟩ := ne_of_not_sideKind hk
  unfold closeBilling
  split
  · exact getK_pace hover
  · split
    · rfl
    · rw [getK_pace hover, mergeFinal, getK_saturation hover hsat]
      rfl

theorem offerClosings_alarms (l : List ClosingOffer) (s : State) : (offerClosings l s).alarms = s.alarms := by
  induction l generalizing s with
  | nil => rfl
  | cons o l ih =>
    unfold offerClosings
    split
    · rw [ih]; rfl
    · rfl

theorem addClosings_alarms (l : List ClosingOffer) (s : State) : (addClosings l s).alarms = s.alarms := by
  unfold addClosings
  split
  · rfl
  split
  · exact offerClosings_alarms _ _
  · rfl

theorem foldl_modU_frame (l : List UnitNo) (f : UnitRecord → UnitRecord) (s : State) :
    l.foldl (fun t u => modU u f t) s = { s with ut := (l.foldl (fun t u => modU u f t) s).ut } := by
  induction l generalizing s with
  | nil => rfl
  | cons u l ih => rw [List.foldl_cons, ih]; rfl

/-- The taking of a step touches the records and the machine alone. -/
theorem stepTaken_frame (j : StepKind) (s : State) :
    stepTaken j s = { s with ut := (stepTaken j s).ut, lm := (stepTaken j s).lm } := by
  unfold stepTaken
  split
  · rfl
  · rw [foldl_modU_frame]
  · rfl

theorem offerStep_alarms (j : StepKind) (s : State) : (offerStep j s).alarms = s.alarms := by
  unfold offerStep
  simp only
  split
  · rfl
  split
  · rw [modIso_alarms, stepTaken_frame]; rfl
  · rfl

theorem getK_verdictUnlocated (hk : k ∉ sideKinds) : getK k (verdictUnlocated s) = getK k s := by
  obtain ⟨hover, -, hrogue⟩ := ne_of_not_sideKind hk
  rw [verdictUnlocated, getK_congr (addClosings_alarms _ _), getK_occur_other hover hrogue.symm]
  rfl

theorem getK_isoRemove {u : UnitNo} (hk : k ∉ sideKinds) : getK k (isoRemove u s) = getK k s := by
  unfold isoRemove
  split
  case h_4 =>
    simp only
    split
    · exact getK_verdictUnlocated hk
    split
    · rfl
    split
    · rfl
    · rw [getK_congr (offerStep_alarms _ _)]; rfl
  all_goals rfl

theorem getK_retire {u : UnitNo} (hk : k ∉ sideKinds) : getK k (retire u s) = getK k s := by
  unfold retire
  simp only
  rw [getK_closeBilling hk, getK_isoRemove hk]
  rfl

theorem getK_offerDrop {p : Producer} {u : UnitNo} : getK k (offerDrop p u s) = getK k s := by
  rcases offerDrop_cases p u s with ⟨-, h⟩ | ⟨-, h⟩ <;> rw [h] <;> rfl

theorem getK_directFree {u : UnitNo} (hk : k ∉ sideKinds) : getK k (directFree u s) = getK k s := by
  obtain ⟨hover, -, -⟩ := ne_of_not_sideKind hk
  rw [directFree_eq]
  have hfreed : getK k (if (getU u s).state = .ranging then
      isoRemove u (offerDrop .ec u (withdrawOrders .ec (isAssignFor u) (freedDirect u s)).1)
      else freedDirect u s) = getK k s := by
    split
    · rw [getK_isoRemove hk, getK_offerDrop]; rfl
    · rfl
  simp only
  split
  · rw [queueReleased, getK_offerClaim hover, hfreed]
  · exact hfreed

theorem getK_endService {u : UnitNo} (hk : k ∉ sideKinds) : getK k (endService u s) = getK k s := by
  unfold endService
  split
  · exact getK_retire hk
  split
  · exact getK_directFree hk
  · rfl

end

/-! ### Notices that stay in the outbox, and the room left -/

section
variable {b c : NoticeBody} {n : Nat} {s t : State}

theorem OutboxRoom.mono {m : Nat} (h : OutboxRoom n s) (hm : m ≤ n) : OutboxRoom m s := Nat.le_trans (Nat.add_le_add_left hm _) h

theorem OutboxRoom.congr (h : OutboxRoom n s) (ht : t.sbp = s.sbp) : OutboxRoom n t := by
  unfold OutboxRoom
  rw [ht]
  exact h

theorem OutboxRoom.lt (h : OutboxRoom (n + 1) s) : s.sbp.outbox.length < 32 := by
  unfold OutboxRoom at h
  omega

theorem offerNotice_keepsRoom (hb : b.cls ≠ 6) (h : OutboxRoom (n + 1) s) : OutboxRoom n (offerNotice b s) := by
  unfold OutboxRoom at h ⊢
  rw [offerNotice_room hb (by omega)]
  have := outboxFor_length_le b s
  simp only [insertNotice_length]
  omega

theorem occur_keepsRoom {k : AlarmKind} {x : Option Serial} (h : OutboxRoom (n + 1) s) : OutboxRoom n (occur k x s) := by
  unfold occur
  split
  · exact offerNotice_keepsRoom alarm_cls_ne_usage (outboxRoom_latch.mpr h)
  · exact outboxRoom_latch.mpr (h.mono (Nat.le_succ n))

theorem InOutbox.congr (h : InOutbox c s) (ht : t.sbp = s.sbp) : InOutbox c t := by
  unfold InOutbox
  rw [ht]
  exact h

/-- Only a load notice takes the place of another while there is room (R175). -/
theorem InOutbox.offerNotice (h : InOutbox c s) (hb : b.cls ≠ 6) (hl : b.isLoad = false) (hr : OutboxRoom 1 s) :
    InOutbox c (offerNotice b s) := by
  obtain ⟨m, hm, hc⟩ := h
  rw [offerNotice_room hb hr.lt]
  refine ⟨m, ?_, hc⟩
  simp only [mem_insertNotice, outboxFor, hl, Bool.false_eq_true, if_false]
  exact .inr hm

theorem InOutbox.occur {k : AlarmKind} {x : Option Serial} (h : InOutbox c s) (hr : OutboxRoom 1 s) : InOutbox c (occur k x s) := by
  unfold Machine.occur
  split
  · exact InOutbox.offerNotice (s := latch k x s) h alarm_cls_ne_usage rfl (outboxRoom_latch.mpr hr)
  · exact h

theorem queueReleased_inOutbox {u : UnitNo} {x : Serial} {l : Nat} (hr : OutboxRoom 1 s) :
    InOutbox (.claim x l .released u) (queueReleased u x l s) :=
  offerNotice_inOutbox (by simp [NoticeBody.cls]) hr.lt

/-- A held claim that finds room is offered, and starts the refresh of a serving record (R51, R161). -/
theorem queueHeld_room {u : UnitNo} {x : Serial} (hx : (getU u s).serial = some x) (hr : OutboxRoom 1 s) :
    queueHeld u s = modU u (fun r => if serves r then { r with claimRefresh := 4000 } else r)
      (Machine.offerNotice (.claim x (getU u s).level .held u) s) := by
  have hrefuses : outboxRefuses (.claim x (getU u s).level .held u) s = false := by
    have := outboxFor_length_le (.claim x (getU u s).level .held u) s
    have := hr.lt
    simp [outboxRefuses, NoticeBody.cls]
    omega
  simp [queueHeld, hx, hrefuses]

theorem queueHeld_inOutbox {u : UnitNo} {x : Serial} (hx : (getU u s).serial = some x) (hr : OutboxRoom 1 s) :
    InOutbox (.claim x (getU u s).level .held u) (queueHeld u s) := by
  rw [queueHeld_room hx hr]
  exact offerNotice_inOutbox (by simp [NoticeBody.cls]) hr.lt

theorem queueHeld_keepsRoom {u : UnitNo} {x : Serial} (hx : (getU u s).serial = some x) (hr : OutboxRoom (n + 1) s) :
    OutboxRoom n (queueHeld u s) := by
  rw [queueHeld_room hx (hr.mono (by omega))]
  exact offerNotice_keepsRoom (by simp [NoticeBody.cls]) hr

theorem offerClosings_sbp (l : List ClosingOffer) (s : State) : (offerClosings l s).sbp = s.sbp := by
  induction l generalizing s with
  | nil => rfl
  | cons o l ih =>
    unfold offerClosings
    split
    · rw [ih]; rfl
    · rfl

theorem addClosings_sbp (l : List ClosingOffer) (s : State) : (addClosings l s).sbp = s.sbp := by
  unfold addClosings
  split
  · rfl
  split
  · exact offerClosings_sbp _ _
  · rfl

theorem offerStep_sbp (j : StepKind) (s : State) : (offerStep j s).sbp = s.sbp := by
  unfold offerStep
  simp only
  split
  · rfl
  split
  · rw [modIso_sbp, stepTaken_frame]; rfl
  · rfl

/-- A removal from the search offers one notice at most: ROGUE_UNLOCATED's (R128, R130). -/
theorem isoRemove_keepsRoom {u : UnitNo} (h : OutboxRoom (n + 1) s) : OutboxRoom n (isoRemove u s) := by
  have hsame : OutboxRoom n s := h.mono (Nat.le_succ n)
  unfold isoRemove
  split
  case h_4 =>
    simp only
    split
    · exact (occur_keepsRoom (s := modIso _ (modIso (dropUnit u) s)) h).congr (addClosings_sbp _ _)
    split
    · exact hsame
    split
    · exact hsame
    · exact hsame.congr (offerStep_sbp _ _)
  all_goals exact hsame

end

/-! ### The orders of the search -/

/-- From `s` to `t` orders of the LM alone have joined the queue, and none has left it. -/
structure AddsSearchOrders (s t : State) : Prop where
  kept  : ∀ q ∈ s.tli.queue, q ∈ t.tli.queue
  added : ∀ q ∈ t.tli.queue, q ∈ s.tli.queue ∨ q.producer = .lm

theorem AddsSearchOrders.of_queue {s t : State} (h : t.tli.queue = s.tli.queue) : AddsSearchOrders s t :=
  ⟨fun _ hq => h ▸ hq, fun _ hq => .inl (h ▸ hq)⟩

theorem AddsSearchOrders.trans {s t v : State} (h : AddsSearchOrders s t) (k : AddsSearchOrders t v) : AddsSearchOrders s v :=
  ⟨fun q hq => k.kept q (h.kept q hq), fun q hq => (k.added q hq).elim (h.added q) .inr⟩

theorem AddsSearchOrders.congr {s t v : State} (h : AddsSearchOrders s t) (hv : v.tli.queue = t.tli.queue) : AddsSearchOrders s v :=
  h.trans (.of_queue hv)

theorem mem_enqueueAll {q : QueuedOrder} {l : List QueuedOrder} {s : State} :
    q ∈ (enqueueAll l s).tli.queue ↔ q ∈ l ∨ q ∈ s.tli.queue := by
  unfold enqueueAll
  simp only
  generalize s.tli.queue = queue
  induction l generalizing queue with
  | nil => simp
  | cons x l ih =>
    rw [List.foldl_cons, ih, mem_enqueue, List.mem_cons]
    tauto

theorem markedOffer_cons (m : OfferMark) (o : PuOrder) {l : List PuOrder} (hl : l ≠ []) :
    markedOffer m (o :: l) = ⟨o, .lm, .plain⟩ :: markedOffer m l := by
  cases l with
  | nil => exact absurd rfl hl
  | cons o' l => rfl

theorem markedOffer_producer {m : OfferMark} {l : List PuOrder} {q : QueuedOrder} (hq : q ∈ markedOffer m l) : q.producer = .lm := by
  induction l with
  | nil => simp [markedOffer] at hq
  | cons o l ih =>
    by_cases hl : l = []
    · subst hl
      rw [markedOffer, List.mem_singleton] at hq
      rw [hq]
    · rw [markedOffer_cons m o hl] at hq
      rcases List.mem_cons.mp hq with rfl | hq
      · rfl
      · exact ih hq

theorem enqueueAll_addsSearchOrders (m : OfferMark) (l : List PuOrder) (s : State) :
    AddsSearchOrders s (enqueueAll (markedOffer m l) s) :=
  ⟨fun _ hq => mem_enqueueAll.mpr (.inr hq), fun _ hq => (mem_enqueueAll.mp hq).symm.imp_right markedOffer_producer⟩

theorem offerClosings_addsSearchOrders (l : List ClosingOffer) (s : State) : AddsSearchOrders s (offerClosings l s) := by
  induction l generalizing s with
  | nil => exact .of_queue rfl
  | cons o l ih =>
    unfold offerClosings
    split
    · exact ((enqueueAll_addsSearchOrders (.closingEnd o.clears) o.orders s).congr (by rfl)).trans (ih _)
    · exact .of_queue rfl

theorem addClosings_addsSearchOrders (l : List ClosingOffer) (s : State) : AddsSearchOrders s (addClosings l s) := by
  unfold addClosings
  split
  · exact .of_queue rfl
  split
  · exact (AddsSearchOrders.of_queue (by rfl)).trans (offerClosings_addsSearchOrders _ _)
  · exact .of_queue rfl

theorem offerStep_addsSearchOrders (j : StepKind) (s : State) : AddsSearchOrders s (offerStep j s) := by
  unfold offerStep
  simp only
  split
  · exact .of_queue rfl
  split
  · refine (enqueueAll_addsSearchOrders .stepEnd (stepOrders j s.lm.iso) s).congr ?_
    rw [modIso_tli, stepTaken_frame]
  · exact .of_queue rfl

theorem isoRemove_addsSearchOrders (u : UnitNo) (s : State) : AddsSearchOrders s (isoRemove u s) := by
  unfold isoRemove
  split
  case h_4 =>
    simp only
    split
    · refine (AddsSearchOrders.of_queue ?_).trans (addClosings_addsSearchOrders _ _)
      rw [(occur_reports _ _ _).tli]
      rfl
    split
    · exact .of_queue rfl
    split
    · exact .of_queue rfl
    · exact (AddsSearchOrders.of_queue (by rfl)).trans (offerStep_addsSearchOrders _ _)
  all_goals exact .of_queue rfl

/-! ### The removal of a record from the search (R130) -/

/-- A search that is over, or whose lists do not name the unit, goes on without it. -/
theorem OutOfSearch.congr {u : UnitNo} {s t : State} (h : OutOfSearch u s) (ht : t.lm.iso = s.lm.iso) : OutOfSearch u t := by
  unfold OutOfSearch
  rw [ht]
  exact h

theorem offerStep_speak_lists (s : State) : (offerStep .speak s).lm.iso.hushedSet = s.lm.iso.hushedSet
    ∧ (offerStep .speak s).lm.iso.cand = s.lm.iso.cand ∧ (offerStep .speak s).lm.iso.speak = s.lm.iso.speak
    ∧ (offerStep .speak s).lm.iso.hush = s.lm.iso.hush := by
  unfold offerStep
  simp only
  split
  · exact ⟨rfl, rfl, rfl, rfl⟩
  split
  · exact ⟨rfl, rfl, rfl, rfl⟩
  · exact ⟨rfl, rfl, rfl, rfl⟩

theorem offerClosings_phase (l : List ClosingOffer) (s : State) : (offerClosings l s).lm.iso.phase = s.lm.iso.phase := by
  induction l generalizing s with
  | nil => rfl
  | cons o l ih =>
    unfold offerClosings
    split
    · rw [ih]; rfl
    · rfl

theorem addClosings_phase (l : List ClosingOffer) (s : State) : (addClosings l s).lm.iso.phase = s.lm.iso.phase := by
  unfold addClosings
  split
  · rfl
  split
  · exact offerClosings_phase _ _
  · rfl

theorem verdictUnlocated_phase (s : State) : (verdictUnlocated s).lm.iso.phase = .holdoff := by
  rw [verdictUnlocated, addClosings_phase, (occur_reports _ _ _).lm]
  rfl

theorem not_mem_firstHalf {u : UnitNo} {l : List UnitNo} (h : u ∉ l) : u ∉ firstHalf l := fun hu => h (List.mem_of_mem_take hu)

theorem isoRemove_outOfSearch (u : UnitNo) (s : State) : OutOfSearch u (isoRemove u s) := by
  unfold isoRemove
  split
  case h_1 hphase => intro h; simp [hphase] at h
  case h_2 hphase => intro h; simp [hphase] at h
  case h_3 => intro _; simp [dropUnit]
  case h_4 =>
    simp only
    split
    · intro h; simp [verdictUnlocated_phase] at h
    split
    · intro _; simp [dropUnit]
    have hcand : u ∉ firstHalf (s.lm.iso.cand.filter (· ≠ u)) := not_mem_firstHalf (by simp)
    split
    · intro _
      refine ⟨?_, ?_, hcand, List.not_mem_nil⟩ <;> simp [dropUnit]
    · intro _
      rw [(offerStep_speak_lists _).1, (offerStep_speak_lists _).2.1, (offerStep_speak_lists _).2.2.1, (offerStep_speak_lists _).2.2.2]
      refine ⟨?_, ?_, hcand, List.not_mem_nil⟩ <;> simp [dropUnit]

/-! ### The other records -/

theorem OtherUnitsSame.trans {u : UnitNo} {s t v : State} (h : OtherUnitsSame u s t) (k : OtherUnitsSame u t v) :
    OtherUnitsSame u s v := fun w hw => by
  obtain ⟨h1, h2, h3⟩ := h w hw
  obtain ⟨k1, k2, k3⟩ := k w hw
  exact ⟨k1.trans h1, k2.trans h2, k3.trans h3⟩

theorem OnlySearch.otherUnits {s t : State} (h : OnlySearch s t) (u : UnitNo) : OtherUnitsSame u s t :=
  fun v _ => ⟨getU_congr h.ut v, h.live v, h.takeNo v⟩

theorem OnlyReports.otherUnits {s t : State} (h : OnlyReports s t) (u : UnitNo) : OtherUnitsSame u s t := h.search.otherUnits u

theorem otherUnits_of_same {u : UnitNo} {s t : State} (hU : ∀ v, v ≠ u → getU v t = getU v s)
    (hA : ∀ v, v ≠ u → getA v t = getA v s) : OtherUnitsSame u s t :=
  fun v hv => ⟨hU v hv, by rw [hA v hv], by rw [hA v hv]⟩

theorem modU_otherUnits (u : UnitNo) (f : UnitRecord → UnitRecord) (s : State) : OtherUnitsSame u s (modU u f s) :=
  otherUnits_of_same (fun v hv => by rw [getU_modU, if_neg hv.symm]) fun _ _ => rfl

theorem setU_otherUnits (u : UnitNo) (r : UnitRecord) (s : State) : OtherUnitsSame u s (setU u r s) :=
  modU_otherUnits u (fun _ => r) s

theorem modA_otherUnits (u : UnitNo) (f : Account → Account) (s : State) : OtherUnitsSame u s (modA u f s) :=
  otherUnits_of_same (fun _ _ => rfl) fun v hv => by rw [getA_modA, if_neg hv.symm]

/-- A change of anything but the records and the accounts. -/
theorem otherUnits_of_tables {u : UnitNo} {s t : State} (hU : t.ut = s.ut := by rfl) (hA : t.ucb.accounts = s.ucb.accounts := by rfl) :
    OtherUnitsSame u s t := otherUnits_of_same (fun v _ => getU_congr hU v) fun v _ => getA_congr hA v

theorem offerDrop_otherUnits (p : Producer) (u : UnitNo) (s : State) : OtherUnitsSame u s (offerDrop p u s) := by
  rcases offerDrop_cases p u s with ⟨-, h⟩ | ⟨-, h⟩ <;> rw [h]
  · exact (otherUnits_of_tables (t := s.withQueue _)).trans (modU_otherUnits u _ _)
  · exact modU_otherUnits u _ _

theorem queueHeld_otherUnits (u : UnitNo) (s : State) : OtherUnitsSame u s (queueHeld u s) := by
  unfold queueHeld
  split
  · exact otherUnits_of_tables
  · simp only
    split
    · exact (offerNotice_reports _ _).otherUnits u
    · exact ((offerNotice_reports _ _).otherUnits u).trans (modU_otherUnits u _ _)

theorem closeBilling_otherUnits (u : UnitNo) (s : State) : OtherUnitsSame u s (closeBilling u s) := by
  unfold closeBilling
  split
  · exact (modA_otherUnits u _ s).trans ((pace_reports _).otherUnits u)
  · split
    · exact modA_otherUnits u _ s
    · exact (modA_otherUnits u _ s).trans (((saturation_reports _ _ _ _).otherUnits u).trans ((pace_reports _).otherUnits u))

/-! ### Retirement (R35) -/

/-- What a retirement does before it removes the record from the search. -/
def leftTree (u : UnitNo) (s : State) : State :=
  (withdrawOrders .ec (fun o => isAssignFor u o || isEqdFor u o) (leaveRangingQueue u (modU u retiredRecord s))).1

theorem retire_eq (u : UnitNo) (s : State) : retire u s = closeBilling u (isoRemove u (leftTree u s)) := rfl

/-- What the statements on a record that leaves service read of the state before: the record's name and delay, and its billing but
for where its snapshot waits. -/
structure SameService (u : UnitNo) (s t : State) : Prop where
  serial   : (getU u t).serial = (getU u s).serial
  eqd      : (getU u t).eqd = (getU u s).eqd
  disputed : (getU u t).disputed = (getU u s).disputed
  live     : (getA u t).live = (getA u s).live
  takeNo   : (getA u t).takeNo = (getA u s).takeNo
  snapshot : (getA u t).snapshot.map Snapshot.contents = (getA u s).snapshot.map Snapshot.contents
  onLine   : (getA u t).snapshot.any (fun p => p.notice == .onLine) = (getA u s).snapshot.any (fun p => p.notice == .onLine)

theorem OnlySearch.sameService {s t : State} (h : OnlySearch s t) (u : UnitNo) : SameService u s t :=
  have hU := getU_congr h.ut u
  ⟨by rw [hU], by rw [hU], by rw [hU], h.live u, h.takeNo u, h.snapshot u, h.onLine u⟩

theorem SameService.trans {u : UnitNo} {s t v : State} (h : SameService u s t) (k : SameService u t v) : SameService u s v :=
  ⟨k.serial.trans h.serial, k.eqd.trans h.eqd, k.disputed.trans h.disputed, k.live.trans h.live, k.takeNo.trans h.takeNo,
    k.snapshot.trans h.snapshot, k.onLine.trans h.onLine⟩

theorem sameService_of_account {u : UnitNo} {s t : State} (hA : getA u t = getA u s) (hserial : (getU u t).serial = (getU u s).serial)
    (heqd : (getU u t).eqd = (getU u s).eqd) (hdisputed : (getU u t).disputed = (getU u s).disputed) : SameService u s t :=
  ⟨hserial, heqd, hdisputed, by rw [hA], by rw [hA], by rw [hA], by rw [hA]⟩

/-- A snapshot as it stands in the other state, and whether it is on the line there. -/
theorem SameService.find {u : UnitNo} {s t : State} (h : SameService u s t) {p : Snapshot} (hp : (getA u s).snapshot = some p) :
    ∃ q, (getA u t).snapshot = some q ∧ q.contents = p.contents ∧ (q.notice = .onLine ↔ p.notice = .onLine) := by
  have hs := h.snapshot
  have hl := h.onLine
  rw [hp] at hs hl
  obtain ⟨q, hq, hc⟩ := Option.map_eq_some_iff.mp hs
  rw [hq] at hl
  refine ⟨q, hq, hc, ?_⟩
  rw [← beq_iff_eq (a := q.notice), ← beq_iff_eq (a := p.notice), Bool.coe_iff_coe]
  simpa using hl

theorem Snapshot.eq_of_contents {p q : Snapshot} (h : q.contents = p.contents) (hn : q.notice = p.notice) : q = p := by
  obtain ⟨_, _, _, _, _, _⟩ := p
  obtain ⟨_, _, _, _, _, _⟩ := q
  simp_all [Snapshot.contents]

theorem BillingClosed.of_same {u : UnitNo} {s s' t : State} (h : BillingClosed u s' t) (hs : SameService u s s') :
    BillingClosed u s t := by
  obtain ⟨hmoved, hmerged, hpending⟩ := h
  refine ⟨fun hnone => ?moved, fun p hp hn => ?merged, fun p hp hn => ?pending⟩
  case moved =>
    have hnone' : (getA u s').snapshot = none := by
      have := hs.snapshot
      rw [hnone] at this
      simpa using this
    have := hmoved hnone'
    unfold MovedFinal at this ⊢
    rwa [hs.takeNo, hs.live, hs.disputed] at this
  case merged =>
    obtain ⟨q, hq, hc, hl⟩ := hs.find hp
    obtain ⟨hlive, hno, r, hr, hsum, htake, hfinal, hdisp, hclose, hsat⟩ := hmerged q hq (fun h => hn (hl.mp h))
    simp only [Snapshot.contents, Snapshot.mk.injEq] at hc
    obtain ⟨hcounters, htakeNo, -⟩ := hc
    rw [hcounters, hs.live] at hsum
    rw [hcounters] at hsat
    exact ⟨hlive, hno.trans hs.takeNo, r, hr, hsum, htake.trans htakeNo, hfinal, hdisp.trans hs.disputed, hclose, hsat⟩
  case pending =>
    obtain ⟨q, hq, hc, hl⟩ := hs.find hp
    obtain rfl : q = p := Snapshot.eq_of_contents hc ((hl.mpr hn).trans hn.symm)
    obtain ⟨hlive, hno, hsnap⟩ := hpending q hq hn
    exact ⟨hlive.trans hs.live, hno.trans hs.takeNo, hsnap⟩

theorem LeftService.of_same {u : UnitNo} {s s' t : State} (h : LeftService u s' t) (hs : SameService u s s') : LeftService u s t := by
  obtain ⟨hstate, hserial, heqd, hprov, hhold, hrefresh, hpoll, hqueue, horders, hsearch, hbilling⟩ := h
  exact ⟨hstate, hserial.trans hs.serial, heqd.trans hs.eqd, hprov, hhold, hrefresh, hpoll, hqueue, horders, hsearch,
    hbilling.of_same hs⟩

theorem saturation_lm (u : UnitNo) (a b : Bool) (s : State) : (saturation u a b s).lm = s.lm := (saturation_reports _ _ _ _).lm

@[simp] theorem closeBilling_lm (u : UnitNo) (s : State) : (closeBilling u s).lm = s.lm := by
  unfold closeBilling
  split
  · exact (pace_reports _).lm
  · split
    · rfl
    · exact (pace_reports _).lm.trans (saturation_lm _ _ _ _)

theorem leftTree_orders {u : UnitNo} {s : State} {q : QueuedOrder} (hq : q ∈ (leftTree u s).tli.queue) (hp : q.producer = .ec) :
    isAssignFor u q.order = false ∧ isEqdFor u q.order = false := by
  have := (List.mem_filter.mp hq).2
  simpa [withdrawn, hp] using this

/-- Retirement is what `LeftService` says (R35). -/
theorem leftService_retire (u : UnitNo) (s : State) : LeftService u s (retire u s) := by
  have hU : getU u (retire u s) = retiredRecord (getU u s) := by rw [getU_retire, if_pos rfl]
  have hqueue : (retire u s).tli.queue = (isoRemove u (leftTree u s)).tli.queue := by rw [retire_eq, closeBilling_tli]
  have hsame : SameService u s (isoRemove u (leftTree u s)) := by
    refine SameService.trans ?_ ((isoRemove_search u _).sameService u)
    have hleft : getU u (leftTree u s) = retiredRecord (getU u s) := getU_modU_same u retiredRecord s
    exact sameService_of_account rfl (by rw [hleft]; rfl) (by rw [hleft]; rfl) (by rw [hleft]; rfl)
  refine ⟨by rw [hU]; rfl, by rw [hU]; rfl, by rw [hU]; rfl, by rw [hU]; rfl, by rw [hU]; rfl, by rw [hU]; rfl, by rw [hU]; rfl,
    ?_, fun q hq hp => ?_, ?_, ?_⟩
  · rw [retire_rangingQueue]; simp
  · rw [hqueue] at hq
    rcases (isoRemove_addsSearchOrders u _).added q hq with hold | hlm
    · exact leftTree_orders hold hp
    · rw [hlm] at hp; cases hp
  · exact (isoRemove_outOfSearch u _).congr (by rw [retire_eq, closeBilling_lm])
  · exact (billingClosed_closeBilling u _).of_same hsame

theorem retire_otherUnits (u : UnitNo) (s : State) : OtherUnitsSame u s (retire u s) := by
  have hleft : OtherUnitsSame u s (leftTree u s) := modU_otherUnits u retiredRecord s
  exact hleft.trans (((isoRemove_search u _).otherUnits u).trans (closeBilling_otherUnits u _))

theorem retire_permits (u : UnitNo) (s : State) : (retire u s).ec.permits = s.ec.permits := by
  obtain ⟨l, h⟩ := closeBilling_ec u (isoRemove u (leftTree u s))
  rw [retire_eq, h]
  show (isoRemove u (leftTree u s)).ec.permits = _
  rw [(isoRemove_search u _).ec]
  rfl

/-- No attempt is pending for a record that has retired (R57). -/
theorem retire_attempt (u : UnitNo) (s : State) : (getE u (retire u s)).attemptPending = false := by
  have h : (getE u (retire u s)) = getE u (leftTree u s) := by
    refine getE_congr ?_ u
    obtain ⟨l, h⟩ := closeBilling_ec u (isoRemove u (leftTree u s))
    rw [retire_eq, h]
    show (isoRemove u (leftTree u s)).ec.units = _
    rw [(isoRemove_search u _).ec]
  rw [h]
  show (getE u (leaveRangingQueue u (modU u retiredRecord s))).attemptPending = false
  rw [getE_leaveRangingQueue, if_pos rfl]

/-! ### Direct freeing (R37) -/

theorem FreedDirectly.of_state {u : UnitNo} {s s' t : State} (h : FreedDirectly u s' t)
    (hs : (getU u s').state = (getU u s).state) : FreedDirectly u s t := by
  unfold FreedDirectly at *
  rwa [hs] at h

/-- An account with nothing in it is blank. -/
theorem account_eq_blank {a : Account} (hlive : a.live = CounterSet.zero) (hno : a.takeNo = 0)
    (hsnap : a.snapshot.map Snapshot.contents = none) : a = Account.blank := by
  obtain ⟨_, _, _⟩ := a
  simp only [Option.map_eq_none_iff] at hlive hno hsnap
  rw [hlive, hno, hsnap]
  rfl

theorem OnlySearch.blank {u : UnitNo} {s t : State} (h : OnlySearch s t) (hs : getA u s = Account.blank) : getA u t = Account.blank :=
  account_eq_blank (by rw [h.live, hs]; rfl) (by rw [h.takeNo, hs]; rfl) (by rw [h.snapshot, hs]; rfl)

/-- A direct freeing stays what it is through reports. -/
theorem FreedDirectly.reports {u : UnitNo} {s t v : State} (h : FreedDirectly u s t) (r : OnlyReports t v) : FreedDirectly u s v := by
  obtain ⟨hU, hdrop, hA, hqueue, hattempt, hranging, hother⟩ := h
  refine ⟨by rw [r.getU]; exact hU, by rw [r.getU]; exact hdrop, r.search.blank hA, by rw [r.ec]; exact hqueue, by rw [r.getE]; exact hattempt,
    fun hs => ?_, fun hs => by rw [r.getU]; exact hother hs⟩
  obtain ⟨hsearch, horders, hdrops⟩ := hranging hs
  exact ⟨hsearch.congr (by rw [r.lm]), by rw [r.tli]; exact horders, by rw [r.getU, r.tli]; exact hdrops⟩

/-- What a direct freeing does before it offers the released claim. -/
def freedSilently (u : UnitNo) (s : State) : State :=
  if (getU u s).state = .ranging then
    isoRemove u (offerDrop .ec u (withdrawOrders .ec (isAssignFor u) (freedDirect u s)).1)
  else freedDirect u s

theorem directFree_of_serial {u : UnitNo} {s : State} {x : Serial} (hx : (getU u s).serial = some x) :
    directFree u s = queueReleased u x (getU u s).level (freedSilently u s) := by
  rw [directFree_eq]
  simp only [hx]
  rfl

theorem directFree_of_nameless {u : UnitNo} {s : State} (hx : (getU u s).serial = none) : directFree u s = freedSilently u s := by
  rw [directFree_eq]
  simp only [hx]
  rfl

/-- The released claim is a report upon the silent part. -/
theorem directFree_reports (u : UnitNo) (s : State) : OnlyReports (freedSilently u s) (directFree u s) := by
  cases hx : (getU u s).serial with
  | none => rw [directFree_of_nameless hx]; exact .refl _
  | some x => rw [directFree_of_serial hx]; exact queueReleased_reports _ _ _ _

theorem freedDirect_getU (u : UnitNo) (s : State) : getU u (freedDirect u s) = freedRecord 0 := getU_setU_same _ _ _

theorem freedDirect_getA (u : UnitNo) (s : State) : getA u (freedDirect u s) = Account.blank :=
  (vector_get_set _ _ _ _).trans (if_pos rfl)

theorem freedDirect_getE (u : UnitNo) (s : State) : (getE u (freedDirect u s)).attemptPending = false := by
  show (getE u (modE u freedEc (leaveRangingQueue u s))).attemptPending = false
  rw [getE_modE_same]
  rfl

theorem freedDirect_rangingQueue (u : UnitNo) (s : State) : u ∉ (freedDirect u s).ec.rangingQueue := by
  show u ∉ s.ec.rangingQueue.filter (· ≠ u)
  simp

theorem freedDirect_otherUnits (u : UnitNo) (s : State) : OtherUnitsSame u s (freedDirect u s) :=
  otherUnits_of_same (fun v hv => by rw [freedDirect, getU_setU, if_neg hv.symm]; rfl)
    (fun v hv => (vector_get_set _ _ _ _).trans (if_neg hv.symm))

theorem freedSilently_otherUnits (u : UnitNo) (s : State) : OtherUnitsSame u s (freedSilently u s) := by
  unfold freedSilently
  split
  · refine (freedDirect_otherUnits u s).trans ((otherUnits_of_tables ?_ ?_).trans ((offerDrop_otherUnits .ec u _).trans
      ((isoRemove_search u _).otherUnits u)))
    · rfl
    · rfl
  · exact freedDirect_otherUnits u s

theorem directFree_otherUnits (u : UnitNo) (s : State) : OtherUnitsSame u s (directFree u s) :=
  (freedSilently_otherUnits u s).trans ((directFree_reports u s).otherUnits u)

/-- The DROP_UNIT of a freeing stands in the queue or waits, beside the record's other fields (R30). -/
theorem offerDrop_writes (p : Producer) (u : UnitNo) (s : State) :
    ∃ w q, offerDrop p u s = modU u (fun r => { r with dropPending := true, dropWait := w }) (s.withQueue q)
      ∧ (w = .idle ∧ q = enqueue ⟨.dropUnit u, p, .plain⟩ s.tli.queue ∧ s.tli.queue.length < 64
        ∨ w = .waiting ∧ q = s.tli.queue ∧ 64 ≤ s.tli.queue.length) := by
  rcases offerDrop_cases p u s with ⟨hroom, h⟩ | ⟨hfull, h⟩
  · exact ⟨_, _, h, .inl ⟨rfl, rfl, hroom⟩⟩
  · exact ⟨_, _, h, .inr ⟨rfl, rfl, hfull⟩⟩

theorem freedDirectly_silently (u : UnitNo) (s : State) : FreedDirectly u s (freedSilently u s) := by
  by_cases hr : (getU u s).state = .ranging
  case neg =>
    have he : freedSilently u s = freedDirect u s := if_neg hr
    rw [he]
    refine ⟨by rw [freedDirect_getU]; rfl, by rw [freedDirect_getU]; simp [hr, freedRecord, UnitRecord.blank],
      freedDirect_getA u s, freedDirect_rangingQueue u s, freedDirect_getE u s, fun h => absurd h hr,
      fun _ => by rw [freedDirect_getU]; rfl⟩
  case pos =>
    obtain ⟨w, q, hdrop, hw⟩ := offerDrop_writes .ec u (withdrawOrders .ec (isAssignFor u) (freedDirect u s)).1
    generalize hv : offerDrop .ec u (withdrawOrders .ec (isAssignFor u) (freedDirect u s)).1 = v at hdrop
    have he : freedSilently u s = isoRemove u v := by rw [freedSilently, if_pos hr, hv]
    have r := isoRemove_search u v
    have horders := isoRemove_addsSearchOrders u v
    have hU : getU u (isoRemove u v) = { freedRecord 0 with dropPending := true, dropWait := w } := by
      rw [getU_congr r.ut, hdrop, getU_modU_same]
      exact congrArg (fun r : UnitRecord => { r with dropPending := true, dropWait := w }) (freedDirect_getU u s)
    have hA : getA u v = Account.blank := by rw [hdrop]; exact freedDirect_getA u s
    have hqueue : v.tli.queue = q := by rw [hdrop]; rfl
    rw [he]
    refine ⟨by rw [hU]; rfl, by rw [hU]; simp [hr], ?_, ?_, ?_, fun _ => ⟨isoRemove_outOfSearch u v, fun o ho hp => ?_, ?_⟩,
      fun h => absurd hr h⟩
    · exact r.blank hA
    · rw [r.ec, hdrop]; exact freedDirect_rangingQueue u s
    · have hE : getE u (isoRemove u v) = getE u v := getE_congr (by rw [r.ec]) u
      rw [hE, hdrop]
      exact freedDirect_getE u s
    · rcases horders.added o ho with hold | hlm
      · rw [hqueue] at hold
        have hclear : ∀ o ∈ (withdrawOrders .ec (isAssignFor u) (freedDirect u s)).1.tli.queue, o.producer = .ec →
            isAssignFor u o.order = false := fun o ho hp => by
          have := (List.mem_filter.mp ho).2
          simpa [withdrawn, hp] using this
        rcases hw with ⟨-, rfl, -⟩ | ⟨-, rfl, -⟩
        · rcases mem_enqueue.mp hold with rfl | hold
          · rfl
          · exact hclear o hold hp
        · exact hclear o hold hp
      · rw [hlm] at hp; cases hp
    · rw [hU]
      rcases hw with ⟨rfl, rfl, -⟩ | ⟨rfl, rfl, -⟩
      · exact .inl ⟨rfl, horders.kept _ (by rw [hqueue]; exact mem_enqueue.mpr (.inl rfl))⟩
      · exact .inr rfl

/-- A direct freeing is what `FreedDirectly` says (R37). -/
theorem freedDirectly_directFree (u : UnitNo) (s : State) : FreedDirectly u s (directFree u s) :=
  (freedDirectly_silently u s).reports (directFree_reports u s)

theorem directFree_permits (u : UnitNo) (s : State) : (directFree u s).ec.permits = s.ec.permits := by
  rw [(directFree_reports u s).ec]
  unfold freedSilently
  split
  · rw [(isoRemove_search u _).ec]
    obtain ⟨w, q, hdrop, -⟩ := offerDrop_writes .ec u (withdrawOrders .ec (isAssignFor u) (freedDirect u s)).1
    rw [hdrop]
    rfl
  · rfl

/-- From CLAIMING no order is offered (R37). -/
theorem directFree_tli {u : UnitNo} {s : State} (h : (getU u s).state ≠ .ranging) : (directFree u s).tli = s.tli := by
  rw [(directFree_reports u s).tli, freedSilently, if_neg h]
  rfl

theorem withdrawOrders_sbp (p : Producer) (w : PuOrder → Bool) (s : State) : (withdrawOrders p w s).1.sbp = s.sbp := rfl

theorem offerDrop_sbp (p : Producer) (u : UnitNo) (s : State) : (offerDrop p u s).sbp = s.sbp := by
  rcases offerDrop_cases p u s with ⟨-, h⟩ | ⟨-, h⟩ <;> rw [h] <;> rfl

theorem freedDirect_room {u : UnitNo} {s : State} {n : Nat} (h : OutboxRoom n s) : OutboxRoom n (freedDirect u s) := by
  show (s.sbp.outbox.map _).length + n ≤ 32
  rw [List.length_map]
  exact h

theorem freedSilently_room {u : UnitNo} {s : State} {n : Nat} (h : OutboxRoom (n + 1) s) : OutboxRoom n (freedSilently u s) := by
  unfold freedSilently
  split
  · have hroom : OutboxRoom (n + 1) (freedDirect u s) := freedDirect_room h
    refine isoRemove_keepsRoom (hroom.congr ?_)
    rw [offerDrop_sbp, withdrawOrders_sbp]
  · exact freedDirect_room (h.mono (Nat.le_succ n))

/-- Beside the released claim a direct freeing offers one notice at most. -/
theorem directFree_inOutbox {u : UnitNo} {s : State} {x : Serial} (hx : (getU u s).serial = some x) (h : OutboxRoom 2 s) :
    InOutbox (.claim x (getU u s).level .released u) (directFree u s) := by
  rw [directFree_of_serial hx]
  exact queueReleased_inOutbox (freedSilently_room h)

/-! ### The end of a service, whichever it is -/

theorem endService_of_inService {u : UnitNo} {s : State} (h : inService (getU u s) = true) : endService u s = retire u s := if_pos h

theorem endService_of_neverServed {u : UnitNo} {s : State} (h : neverServed (getU u s) = true) : endService u s = directFree u s := by
  have hnot : ¬inService (getU u s) = true := by
    revert h
    simp only [neverServed, inService, serves]
    cases (getU u s).state <;> cases (getU u s).returning <;> simp
  rw [endService, if_neg hnot, if_pos h]

theorem endService_otherUnits (u : UnitNo) (s : State) : OtherUnitsSame u s (endService u s) := by
  unfold endService
  split
  · exact retire_otherUnits u s
  split
  · exact directFree_otherUnits u s
  · exact otherUnits_of_tables

theorem endService_permits (u : UnitNo) (s : State) : (endService u s).ec.permits = s.ec.permits := by
  unfold endService
  split
  · exact retire_permits u s
  split
  · exact directFree_permits u s
  · rfl

end Sys2Proof.Machine

/-!
PROOFS. The Unit Table's countdowns and re-offers (O13 to O15), and the orders that end a service or a permit (O17, O20).
-/
namespace Sys2Proof.Machine

-- One proof after another, as in the tests: side by side, the proofs of one text hold more stacks than the check's memory has room for.
set_option Elab.async false

/-! ### An offered ASSIGN (R59) -/

/-- What the offer of an ASSIGN leaves, where the record has a serial and a provisional EqD. -/
theorem offerAssign_offered {u : UnitNo} {s : State} {x : Serial} {q : Nat} (hx : (getU u s).serial = some x)
    (hq : (getU u s).provEqd = some q) :
    ∃ w queue, offerAssign u s = modE u (fun e => { e with assignWait := w }) (s.withQueue queue)
      ∧ (s.tli.queue.length < 64 → w = .idle ∧ queue = enqueue ⟨.assign u x q, .ec, .plain⟩ s.tli.queue)
      ∧ (64 ≤ s.tli.queue.length → w = .waiting ∧ queue = s.tli.queue) := by
  rcases offerAssign_cases u s with ⟨y, r, hy, hr, hroom, h⟩ | ⟨-, -, hfull, h⟩ | ⟨hnone, -⟩
  · obtain rfl : y = x := Option.some.inj (hy.symm.trans hx)
    obtain rfl : r = q := Option.some.inj (hr.symm.trans hq)
    exact ⟨_, _, h, fun _ => ⟨rfl, rfl⟩, fun hfull => absurd hroom (Nat.not_lt.mpr hfull)⟩
  · exact ⟨_, _, h, fun hroom => absurd hroom (Nat.not_lt.mpr hfull), fun _ => ⟨rfl, rfl⟩⟩
  · rcases hnone with h | h
    · rw [h] at hx; cases hx
    · rw [h] at hq; cases hq

/-! ### Countdowns that run out -/

/-- What the end of a claim settle does before the ASSIGN is offered (R52). -/
def settledClaim (u : UnitNo) (q : Nat) (s : State) : State :=
  modU u (fun r => { r with eqd := some q }) (enterRanging u false (some q) s)

theorem getU_settledClaim (u : UnitNo) (q : Nat) (s : State) :
    getU u (settledClaim u q s) = { rangingRecord false (some q) (getU u s) with eqd := some q } := by
  rw [settledClaim, getU_modU_same, getU_enterRanging, if_pos rfl]

theorem enterRanging_otherUnits (u : UnitNo) (b : Bool) (q : Option Nat) (s : State) : OtherUnitsSame u s (enterRanging u b q s) :=
  otherUnits_of_same (fun v hv => by rw [getU_enterRanging, if_neg hv.symm]) fun _ _ => rfl

theorem settledClaim_otherUnits (u : UnitNo) (q : Nat) (s : State) : OtherUnitsSame u s (settledClaim u q s) :=
  (enterRanging_otherUnits u false (some q) s).trans (modU_otherUnits u _ _)

/-- Settles O13: the record is RANGING before its ASSIGN is offered. -/
theorem claimSettleExpiryStartsRanging : Obligations.ClaimSettleExpiryStartsRanging := by
  unfold Obligations.ClaimSettleExpiryStartsRanging
  intro u s x rtd hheld hstate hstarted hsettle hserial hrtd
  let q := teq s.sc.reach - rtd
  have hstep : settleStep u s = offerAssign u (settledClaim u q s) := by
    simp [settleStep, settleExpired, hstate, hstarted, hsettle, hrtd, settledClaim, q]
  have hU := getU_settledClaim u q s
  obtain ⟨w, queue, hoffer, hroom, hfull⟩ := offerAssign_offered (x := x) (q := q) (by rw [hU]; exact hserial) (by rw [hU]; rfl)
  have hE : getE u (settledClaim u q s) = { getE u s with attemptPending := false, measurement := none } :=
    (getE_enterRanging u u false (some q) s).trans (if_pos rfl)
  refine ⟨offerAssign u (settledClaim u q s), (unlessHeld_of_not_held hheld _).trans (by rw [hstep]), ?_⟩
  rw [hoffer]
  simp only [getU_modE, getU_withQueue, hU, getE_modE_same, getE_withQueue, hE]
  refine ⟨rfl, rfl, hserial, rfl, rfl, rfl, trivial, trivial, rfl, fun h => ?_, fun h => ?_, ?_, rfl, rfl⟩
  · obtain ⟨-, rfl⟩ := hroom h
    exact enqueue_perm _ _
  · obtain ⟨rfl, rfl⟩ := hfull h
    exact ⟨rfl, rfl⟩
  · exact (settledClaim_otherUnits u q s).trans otherUnits_of_tables

/-- Settles O15: UNIT_GONE occurs, and the record retires from what that leaves. -/
theorem lostHoldExpiryRetiresTheRecord : Obligations.LostHoldExpiryRetiresTheRecord := by
  unfold Obligations.LostHoldExpiryRetiresTheRecord
  intro u s hheld hstate hhold
  let v := occur .unitGone (getU u s).serial s
  have hstep : lostHoldStep u s = retire u v := by simp [lostHoldStep, lostHoldExpired, hstate, hhold, v]
  have r : OnlyReports s v := occur_reports _ _ _
  refine ⟨retire u v, (unlessHeld_of_not_held hheld _).trans (by rw [hstep]), ?_, ?_, ?_⟩
  · exact (leftService_retire u v).of_same (r.search.sameService u)
  · exact (occurredOnce_occur (by decide)).later (getK_retire (by decide))
  · exact (r.otherUnits u).trans (retire_otherUnits u v)

/-! ### Orders offered again (R30, R59, R114) -/

/-- The first waiting bar that is due for a serial, where one is. -/
theorem find_dueBar {x : Serial} {l : List WaitingBar} (h : ⟨x, true⟩ ∈ l) :
    l.find? (fun b => b.serial == x && b.due) = some ⟨x, true⟩ := by
  obtain ⟨b, hb⟩ := Option.isSome_iff_exists.mp
    (List.find?_isSome (p := fun b : WaitingBar => b.serial == x && b.due).mpr ⟨_, h, by simp⟩)
  have hprop := List.find?_some hb
  simp only [Bool.and_eq_true, beq_iff_eq] at hprop
  obtain ⟨y, d⟩ := b
  obtain ⟨rfl, rfl⟩ := hprop
  exact hb

/-- A BAR_SERIAL standing alone joins the queue, or waits (R114). -/
theorem offerBarSerial_cases (x : Serial) (s : State) :
    (s.tli.queue.length < 64 ∧ offerBarSerial x s = s.withQueue (enqueue ⟨.barSerial x, .lm, .plain⟩ s.tli.queue))
      ∨ (64 ≤ s.tli.queue.length ∧ offerBarSerial x s = { s with lm := { s.lm with barWait := s.lm.barWait ++ [⟨x, false⟩] } }) := by
  unfold offerBarSerial
  by_cases h : queueHasRoom 1 s = true
  · rw [if_pos h, offerOrder, if_pos h]
    exact .inl ⟨by rw [queueHasRoom_iff] at h; omega, rfl⟩
  · rw [if_neg h]
    exact .inr ⟨by rw [queueHasRoom_iff] at h; omega, rfl⟩

/-- Settles O14: one offer of each of the three orders. -/
theorem refusedOrdersAreOfferedAgain : Obligations.RefusedOrdersAreOfferedAgain := by
  unfold Obligations.RefusedOrdersAreOfferedAgain
  refine ⟨fun u s x q hheld hwait hstate hx hq => ?assign, fun u s hheld hwait => ?dropUnit, fun x s hheld hbar => ?barSerial⟩
  case assign =>
    have hstep : assignStep u s = offerAssign u s := by simp [assignStep, hwait, hstate, Reoffer.isDue]
    obtain ⟨w, queue, hoffer, hroom, hfull⟩ := offerAssign_offered hx hq
    refine ⟨offerAssign u s, (unlessHeld_of_not_held hheld _).trans (by rw [hstep]), ?_⟩
    rw [hoffer]
    simp only [getE_modE_same]
    refine ⟨rfl, fun h => ?_, fun h => ?_⟩
    · obtain ⟨rfl, rfl⟩ := hroom h
      exact ⟨enqueue_perm _ _, rfl⟩
    · obtain ⟨rfl, rfl⟩ := hfull h
      exact ⟨rfl, rfl⟩
  case dropUnit =>
    have hstep : dropUnitStep u s = offerDrop .ut u s := by simp [dropUnitStep, hwait, Reoffer.isDue]
    refine ⟨offerDrop .ut u s, (unlessHeld_of_not_held hheld _).trans (by rw [hstep]), ?_, offerDrop_otherUnits _ _ _, ?_⟩
    all_goals rcases offerDrop_cases .ut u s with ⟨hroom, h⟩ | ⟨hfull, h⟩ <;> rw [h, getU_modU_same]
    · exact ⟨fun _ => ⟨enqueue_perm _ _, rfl⟩, fun hfull => absurd hroom (Nat.not_lt.mpr hfull)⟩
    · exact ⟨fun hroom => absurd hroom (Nat.not_lt.mpr hfull), fun _ => ⟨rfl, rfl⟩⟩
  case barSerial =>
    let v : State := { s with lm := { s.lm with barWait := s.lm.barWait.erase ⟨x, true⟩ } }
    have hstep : barSerialStep x s = offerBarSerial x v := by simp only [barSerialStep, find_dueBar hbar, v]
    refine ⟨offerBarSerial x v, (unlessHeld_of_not_held hheld _).trans (by rw [hstep]), ?_⟩
    rcases offerBarSerial_cases x v with ⟨hroom, h⟩ | ⟨hfull, h⟩ <;> rw [h]
    · exact ⟨rfl, fun _ => ⟨enqueue_perm _ _, rfl⟩, fun hfull => absurd hroom (Nat.not_lt.mpr hfull)⟩
    · exact ⟨rfl, fun hroom => absurd hroom (Nat.not_lt.mpr hfull), fun _ => ⟨rfl, rfl⟩⟩

/-! ### REVOKE (R38) -/

theorem findUnit_some {x : Serial} {s : State} {u : UnitNo} (h : findUnit x s = some u) :
    (getU u s).state ≠ .free ∧ (getU u s).serial = some x := 
  (holds_iff x _).mp (List.find?_some (p := fun u => holds x (getU u s)) h)

section
variable {x : Serial} {s : State} {u : UnitNo}

theorem revokeOrder_unknownSerial (h : findUnit x s = none) : revokeOrder x s = (s, .unknownSerial) := by
  simp [revokeOrder, h]

theorem revokeOrder_wrongState (h : findUnit x s = some u) (hu : (getU u s).state = .claiming ∨ (getU u s).state = .retiring) :
    revokeOrder x s = (s, .wrongState) := by
  rcases hu with hu | hu <;> simp [revokeOrder, h, hu]

theorem revokeOrder_done (h : findUnit x s = some u) (hu : onTree (getU u s) = true) :
    revokeOrder x s = (endService u s, .done) := by
  simp only [onTree, Bool.or_eq_true, beq_iff_eq] at hu
  rcases hu with (hu | hu) | hu <;> simp [revokeOrder, h, hu]

theorem exec_revoke_of_taken {h : OrderHead} {t : State} {out : AnswerOutcome} (ht : Taken h s) (ho : revokeOrder x s = (t, out)) :
    exec (.revoke h x) s = .next (answered h 4 out .none t) :=
  receivePlain_of_taken (o := .revoke x) ht (by rw [ownerActs, ho])

end

/-- Settles O17: one row of `revokeOrder` for each state of the record. -/
theorem revokeActsByRecordState : Obligations.RevokeActsByRecordState := by
  unfold Obligations.RevokeActsByRecordState
  intro h x s ht
  refine ⟨fun hnone => ?unknown, fun u hu => ⟨fun hstate => ?wrong, fun hstate => ?retired, fun hstate hret => ?freed⟩⟩
  case unknown => exact exec_revoke_of_taken ht (revokeOrder_unknownSerial hnone)
  case wrong => exact exec_revoke_of_taken ht (revokeOrder_wrongState hu hstate)
  case retired =>
    have htree : onTree (getU u s) = true := by rcases hstate with h | h | ⟨h, -⟩ <;> simp [onTree, h]
    have hserv : inService (getU u s) = true := by rcases hstate with h | h | ⟨h, hret⟩ <;> simp [inService, serves, *]
    refine ⟨_, exec_revoke_of_taken ht (revokeOrder_done hu htree), ?_⟩
    rw [endService_of_inService hserv]
    exact ⟨leftService_retire u s, retire_otherUnits u s, retire_permits u s⟩
  case freed =>
    have htree : onTree (getU u s) = true := by simp [onTree, hstate]
    have hnever : neverServed (getU u s) = true := by simp [neverServed, hstate, hret]
    refine ⟨_, exec_revoke_of_taken ht (revokeOrder_done hu htree), ?_⟩
    rw [endService_of_neverServed hnever]
    exact ⟨freedDirectly_directFree u s, directFree_otherUnits u s, directFree_permits u s,
      directFree_inOutbox (findUnit_some hu).2⟩

/-! ### WITHDRAW (R42) -/

section
variable {x : Serial} {s : State} {u : UnitNo}

theorem withdrawOrder_permit (hp : (findPermit x s).isSome = true) (hu : ∀ u, findUnit x s = some u → neverServed (getU u s) = false) :
    withdrawOrder x s = (removePermit x s, .done) := by
  cases hf : findUnit x s with
  | none => simp [withdrawOrder, hp, hf]
  | some u => simp [withdrawOrder, hp, hf, hu u hf]

theorem withdrawOrder_record (hp : (findPermit x s).isSome = true) (hu : findUnit x s = some u)
    (hn : neverServed (getU u s) = true) : withdrawOrder x s = (directFree u (removePermit x s), .done) := by
  simp [withdrawOrder, hp, hu, hn]

theorem withdrawOrder_wrongState (hp : findPermit x s = none) (hu : (findUnit x s).isSome = true) :
    withdrawOrder x s = (s, .wrongState) := by
  simp [withdrawOrder, hp, hu]

theorem withdrawOrder_unknownSerial (hp : findPermit x s = none) (hu : findUnit x s = none) :
    withdrawOrder x s = (s, .unknownSerial) := by
  simp [withdrawOrder, hp, hu]

theorem exec_withdraw_of_taken {h : OrderHead} {t : State} {out : AnswerOutcome} (ht : Taken h s)
    (ho : withdrawOrder x s = (t, out)) : exec (.withdraw h x) s = .next (answered h 3 out .none t) :=
  receivePlain_of_taken (o := .withdraw x) ht (by rw [ownerActs, ho])

end

/-- Settles O20: one row of `withdrawOrder` for each thing that can hold the serial; the record is freed once its permit has gone. -/
theorem withdrawEndsAPermit : Obligations.WithdrawEndsAPermit := by
  unfold Obligations.WithdrawEndsAPermit
  intro h x s ht
  refine ⟨fun hp => ⟨fun hu => ?permit, fun u hu hn => ?record⟩, fun hp => ⟨fun hu => ?wrongState, fun hu => ?unknown⟩⟩
  case permit =>
    exact exec_withdraw_of_taken ht (withdrawOrder_permit ((findPermit_isSome_iff x s).mpr hp) hu)
  case record =>
    have hsame : getU u (removePermit x s) = getU u s := rfl
    refine ⟨_, exec_withdraw_of_taken ht (withdrawOrder_record ((findPermit_isSome_iff x s).mpr hp) hu hn), ?_, ?_, ?_, ?_, ?_⟩
    · exact (freedDirectly_directFree u (removePermit x s)).of_state rfl
    · exact (otherUnits_of_tables (t := removePermit x s)).trans (directFree_otherUnits u _)
    · rw [directFree_permits]; rfl
    · intro hclaiming
      rw [directFree_tli (by rw [hsame, hclaiming]; simp)]
      rfl
    · exact directFree_inOutbox (s := removePermit x s) (findUnit_some hu).2
  case wrongState =>
    exact exec_withdraw_of_taken ht
      (withdrawOrder_wrongState ((findPermit_eq_none_iff x s).mpr hp) ((findUnit_isSome_iff x s).mpr hu))
  case unknown =>
    exact exec_withdraw_of_taken ht
      (withdrawOrder_unknownSerial ((findPermit_eq_none_iff x s).mpr hp) ((findUnit_eq_none_iff x s).mpr hu))

end Sys2Proof.Machine

/-!
PROOFS. Discovery: what an accepted response leads to (O21, O22).
-/
namespace Sys2Proof.Machine

-- One proof after another, as in the tests: side by side, the proofs of one text hold more stacks than the check's memory has room for.
set_option Elab.async false

/-! ### The lowest unit that a test finds (R29) -/

theorem find_allUnits_eq_some {p : UnitNo → Bool} {u : UnitNo} (hu : p u = true) (hlow : ∀ v, v < u → p v = false) :
    allUnits.find? p = some u := by
  rw [List.find?_eq_some_iff_getElem]
  refine ⟨hu, u.val, by simp [allUnits], by simp [allUnits], fun j hj => ?_⟩
  simp only [allUnits, List.getElem_finRange]
  rw [hlow _ (by simpa [Fin.lt_def] using hj)]
  rfl

theorem find_allUnits_eq_none {p : UnitNo → Bool} (h : ∀ u, p u = false) : allUnits.find? p = none := by
  simp [List.find?_eq_none, h]

/-! ### The hand-over of a response (R16, R45) -/

/-- The plan counts one more accepted response. -/
def responseCounted (n : Nat) (s : State) : State := modPlan n (fun q => { q with accepted := q.accepted + 1 }) s

theorem exec_discoveryResponse {n : Nat} {b : Burst} {s : State} {p : Plan} (hheld : s.held = false) (hserving : s.sc.phase = .serving)
    (hp : findPlan n s = some p) (hdisc : hasDiscovery p = true) (hacc : p.accepted < 8)
    (hb : acceptsResponse s.sc.reach b = true) : exec (.discoveryResponse n b) s
      = .next (hearSerial (payloadSerial b) (responseRtd s.sc.reach b) (meanLevel b.preamble) (responseCounted n s)) := by
  refine (unlessHeld_of_not_held hheld _).trans ?_
  simp only [discoveryStep, hp, hdisc, hb, hacc, hserving, decide_true, Bool.and_self, if_true]
  rfl

theorem rtdValid_iff (c : ReachClass) (rtd : Int) : rtdValid c rtd = true ↔ (rtdMin c : Int) ≤ rtd ∧ rtd ≤ (teq c : Int) := by
  simp [rtdValid]

/-! ### What a heard serial leads to: one equation for each outcome (R46 to R49) -/

section
variable {x : Serial} {rtd : Int} {level : Nat} {s : State} {u : UnitNo} {q : Permit}

theorem hearSerial_barred (hb : isBarred x s = true) : hearSerial x rtd level s = occur .barredSeen (some x) s := by
  simp [hearSerial, hb]

theorem hearSerial_held (hb : isBarred x s = false) (hu : findUnit x s = some u) :
    hearSerial x rtd level s = hearHeld u x rtd s := by
  simp [hearSerial, hb, hu]

theorem hearSerial_permitted (hb : isBarred x s = false) (hu : findUnit x s = none) (hq : findPermit x s = some q) :
    hearSerial x rtd level s = hearPermitted x q rtd level s := by
  simp [hearSerial, hb, hu, hq]

theorem hearSerial_stranger (hb : isBarred x s = false) (hu : findUnit x s = none) (hq : findPermit x s = none) :
    hearSerial x rtd level s = hearStranger x s := by
  simp [hearSerial, hb, hu, hq]

theorem hearHeld_ranged (hu : serves (getU u s) = true) (hr : rtdValid s.sc.reach rtd = true) :
    hearHeld u x rtd s = offerAssign u (enterRanging u true (some (teq s.sc.reach - rtd.toNat)) s) := by
  simp [hearHeld, hu, hr]

theorem hearHeld_outOfReach (hu : serves (getU u s) = true) (hr : ¬rtdValid s.sc.reach rtd = true) :
    hearHeld u x rtd s = occur .outOfReach (some x) s := by
  simp [hearHeld, hu, hr]

theorem hearHeld_ignored (hu : serves (getU u s) = false) : hearHeld u x rtd s = s := by
  simp [hearHeld, hu]

/-- A peer holds the serial (R48, step 2). -/
def HeldByPeer (x : Serial) (s : State) : Prop := ∃ e ∈ s.dv.claims, e.serial = x ∧ e.kind = .held

/-- A peer's claiming claim beats a burst level heard here (R48, step 3). -/
def BeatenByPeer (x : Serial) (level : Nat) (s : State) : Prop :=
  ∃ e ∈ s.dv.claims, e.serial = x ∧ e.kind = .claiming ∧ (level < e.level ∨ (e.level = level ∧ e.peer < s.sc.station))

theorem heldByPeer_iff : (s.dv.claims.any fun e => e.serial == x && e.kind == .held) = true ↔ HeldByPeer x s := by
  simp [HeldByPeer]

theorem beatenByPeer_iff :
    (s.dv.claims.any fun e => e.serial == x && e.kind == .claiming && claimBeats s.sc.station level e) = true
      ↔ BeatenByPeer x level s := by
  simp [BeatenByPeer, claimBeats, and_assoc]

theorem hearPermitted_outOfReach (hr : ¬rtdValid s.sc.reach rtd = true) :
    hearPermitted x q rtd level s = occur .outOfReach (some x) s := by
  simp [hearPermitted, hr]

theorem hearPermitted_duplicate (hr : rtdValid s.sc.reach rtd = true) (hheld : HeldByPeer x s) :
    hearPermitted x q rtd level s = occur .duplicateSerial (some x) s := by
  rw [hearPermitted, if_neg (by simp [hr]), if_pos (heldByPeer_iff.mpr hheld)]

theorem hearPermitted_yielded (hr : rtdValid s.sc.reach rtd = true) (hheld : ¬HeldByPeer x s) (hbeat : BeatenByPeer x level s) :
    hearPermitted x q rtd level s = occur .claimYielded (some x) s := by
  rw [hearPermitted, if_neg (by simp [hr]), if_neg (mt heldByPeer_iff.mp hheld), if_pos (beatenByPeer_iff.mpr hbeat)]

theorem hearPermitted_full (hr : rtdValid s.sc.reach rtd = true) (hheld : ¬HeldByPeer x s) (hbeat : ¬BeatenByPeer x level s)
    (hu : allocatableUnit s = none) : hearPermitted x q rtd level s = occur .tableFull (some x) s := by
  rw [hearPermitted, if_neg (by simp [hr]), if_neg (mt heldByPeer_iff.mp hheld), if_neg (mt beatenByPeer_iff.mp hbeat), hu]

theorem hearPermitted_enrolled (hr : rtdValid s.sc.reach rtd = true) (hheld : ¬HeldByPeer x s) (hbeat : ¬BeatenByPeer x level s)
    (hu : allocatableUnit s = some u) : hearPermitted x q rtd level s = allocate u x q.profile level rtd.toNat s := by
  rw [hearPermitted, if_neg (by simp [hr]), if_neg (mt heldByPeer_iff.mp hheld), if_neg (mt beatenByPeer_iff.mp hbeat), hu]

theorem hearStranger_again (h : ∃ e ∈ s.ec.strangers, e.serial = x) : hearStranger x s
    = { s with ec := { s.ec with strangers := s.ec.strangers.filter (fun e => e.serial ≠ x) ++ [⟨x, 0⟩] } } := by
  rw [hearStranger, if_pos (by simpa using h)]

theorem hearStranger_first (h : ∀ e ∈ s.ec.strangers, e.serial ≠ x) : hearStranger x s
    = occur .stranger (some x) { s with ec := { s.ec with strangers :=
        (if 8 ≤ s.ec.strangers.length then s.ec.strangers.drop 1 else s.ec.strangers) ++ [⟨x, 0⟩] } } := by
  rw [hearStranger, if_neg (by simpa using h)]

end

/-! ### Enrolment (R29, R48) -/

/-- What an enrolment writes before the claiming notice is offered. -/
def enrolled (u : UnitNo) (x : Serial) (p : Profile) (level rtd : Nat) (s : State) : State :=
  modE u (fun e => { freedEc e with measurement := some rtd, claimRef := some s.sbp.nextRef })
    (setU u { UnitRecord.blank with state := .claiming, serial := some x, profile := p, level := level } s)

theorem modE_modE (u : UnitNo) (f g : EcUnit → EcUnit) (s : State) : modE u f (modE u g s) = modE u (fun e => f (g e)) s := by
  unfold modE getE
  simp

theorem allocate_eq (u : UnitNo) (x : Serial) (p : Profile) (level rtd : Nat) (s : State) :
    allocate u x p level rtd s = offerNotice (.claim x level .claiming u) (enrolled u x p level rtd s) := by
  rw [allocate, queueClaiming]
  simp only [getU_modE, getU_setU_same, modE_modE]
  rfl

/-- Settles O21: the outcome of `hearPermitted` that no test of R48 takes, with the lowest allocatable record. -/
theorem discoveryEnrolsAPermittedSerial : Obligations.DiscoveryEnrolsAPermittedSerial := by
  unfold Obligations.DiscoveryEnrolsAPermittedSerial
  intro n b s p q u rtd hheld hserving hp hdisc hacc hb hrtd hmin hmax hbar hu hq hclaims halloc hlow hroom
  let v := responseCounted n s
  let e := enrolled u (payloadSerial b) q.profile (meanLevel b.preamble) rtd v
  have hresp : responseRtd s.sc.reach b = (rtd : Int) := by rw [hrtd]; rfl
  have hvalid : rtdValid v.sc.reach (rtd : Int) = true := (rtdValid_iff _ _).mpr ⟨by exact_mod_cast hmin, by exact_mod_cast hmax⟩
  have hnotHeld : ¬HeldByPeer (payloadSerial b) v := by
    rintro ⟨e, he, hx, hk⟩
    rw [(hclaims e he hx).1] at hk
    cases hk
  have hnotBeaten : ¬BeatenByPeer (payloadSerial b) (meanLevel b.preamble) v := by
    rintro ⟨e, he, hx, -, hbeat⟩
    exact (hclaims e he hx).2 hbeat
  have hunit : allocatableUnit v = some u := find_allUnits_eq_some halloc hlow
  have hhear : hearSerial (payloadSerial b) (responseRtd s.sc.reach b) (meanLevel b.preamble) v
      = offerNotice (.claim (payloadSerial b) (meanLevel b.preamble) .claiming u) e := by
    rw [hresp, hearSerial_permitted (s := v) hbar hu hq, hearPermitted_enrolled hvalid hnotHeld hnotBeaten hunit]
    exact allocate_eq _ _ _ _ _ _
  have hcls : (NoticeBody.claim (payloadSerial b) (meanLevel b.preamble) .claiming u).cls ≠ 6 := by simp [NoticeBody.cls]
  have r := offerNotice_reports (.claim (payloadSerial b) (meanLevel b.preamble) .claiming u) e
  refine ⟨_, (exec_discoveryResponse hheld hserving hp hdisc hacc hb).trans (by rw [hhear]), ?_, ?_, ?_, ?_, ?_, ?_, ?_⟩
  · rw [r.getU]
    exact getU_setU_same _ _ _
  · rw [r.getE]
    exact congrArg EcUnit.measurement (getE_modE_same _ _ _)
  · exact offerNotice_inOutbox hcls hroom.lt
  · exact ((setU_otherUnits u _ v).trans (otherUnits_of_tables (t := e))).trans (r.otherUnits u)
  · rw [r.ec]; rfl
  · rw [r.tli]; rfl
  · rw [offerNotice_room (s := e) hcls hroom.lt]; rfl

/-! ### The other outcomes -/

theorem rangesAgain_enterRanging (u : UnitNo) (prov : Option Nat) (s : State) :
    RangesAgain u prov s (enterRanging u true prov s) := by
  have hU : getU u (enterRanging u true prov s) = rangingRecord true prov (getU u s) := by rw [getU_enterRanging, if_pos rfl]
  have hE := (getE_enterRanging u u true prov s).trans (if_pos rfl)
  unfold RangesAgain
  rw [hU, hE]
  exact ⟨rfl, rfl, rfl, rfl, rfl, rfl, rfl, rfl, rfl, rfl, rfl⟩

theorem RangesAgain.congr {u : UnitNo} {prov : Option Nat} {s t v : State} (h : RangesAgain u prov s t) (hU : getU u v = getU u t)
    (hE : (getE u v).attemptPending = (getE u t).attemptPending) (hq : v.ec.rangingQueue = t.ec.rangingQueue) :
    RangesAgain u prov s v := by
  unfold RangesAgain at *
  rwa [hU, hE, hq]

/-- An occurrence alone, after a plan has counted a response. -/
theorem alone_of_occur {k : AlarmKind} {x : Option Serial} {n : Nat} {s t : State} (ht : t = occur k x (responseCounted n s))
    (hk : k ≠ .outboxOverflow) :
    t.ut = s.ut ∧ t.tli = s.tli ∧ t.ec = { s.ec with lostClaims := t.ec.lostClaims } ∧ OccurredOnce k s t := by
  subst ht
  have r := occur_reports k x (responseCounted n s)
  exact ⟨r.ut, r.tli, r.ec, (occurredOnce_occur hk).earlier rfl⟩

/-- Settles O22: one outcome of `hearSerial` for each clause, in the order of the spec's tests. -/
theorem discoverySortsAHeardSerial : Obligations.DiscoverySortsAHeardSerial := by
  unfold Obligations.DiscoverySortsAHeardSerial
  intro n b s p hheld hserving hp hdisc hacc hb
  let v := responseCounted n s
  have hreach : rtdValid v.sc.reach (responseRtd s.sc.reach b) = true ↔ _ := rtdValid_iff _ _
  generalize ht : hearSerial (payloadSerial b) (responseRtd s.sc.reach b) (meanLevel b.preamble) v = t
  refine ⟨t, (exec_discoveryResponse hheld hserving hp hdisc hacc hb).trans (congrArg _ ht), ?_⟩
  intro x rtd inReach held beaten raisedAlone
  refine ⟨fun hbar => ?barred, fun hbar => ⟨fun u k hu hserves hk hin => ?ranged, fun u hu hserves hin => ?heldOutOfReach,
    fun u hu hserves => ?ignored, fun hu hq => ?permitted, fun hu hq => ?stranger⟩⟩
  case barred => exact alone_of_occur (ht.symm.trans (hearSerial_barred (s := v) hbar)) (by decide)
  case ranged =>
    obtain rfl : rtd.toNat = k := by omega
    let prov := teq s.sc.reach - rtd.toNat
    let w := enterRanging u true (some prov) v
    have hU : getU u w = rangingRecord true (some prov) (getU u s) := (getU_enterRanging _ _ _ _ _).trans (if_pos rfl)
    have hagain : RangesAgain u (some prov) s w := rangesAgain_enterRanging u (some prov) v
    have hother : OtherUnitsSame u s w :=
      (otherUnits_of_tables (t := v)).trans (enterRanging_otherUnits u true (some prov) v)
    obtain ⟨wait, queue, hoffer, hroom, hfull⟩ := offerAssign_offered (s := w) (x := x) (q := prov)
      (by rw [hU]; exact (findUnit_some hu).2) (by rw [hU]; rfl)
    obtain rfl : modE u (fun e => { e with assignWait := wait }) (w.withQueue queue) = t := by
      rw [← ht, hearSerial_held (s := v) hbar hu, hearHeld_ranged (s := v) hserves (hreach.mpr hin)]
      exact hoffer.symm
    refine ⟨hagain.congr rfl (by rw [getE_modE_same]; rfl) rfl, hother.trans otherUnits_of_tables, rfl, fun h => ?_, fun h => ?_⟩
    · obtain ⟨-, rfl⟩ := hroom h
      exact mem_enqueue.mpr (.inl rfl)
    · obtain ⟨rfl, rfl⟩ := hfull h
      exact ⟨rfl, by rw [getE_modE_same]⟩
  case heldOutOfReach =>
    exact alone_of_occur (ht.symm.trans ((hearSerial_held (s := v) hbar hu).trans
      (hearHeld_outOfReach (s := v) hserves (mt hreach.mp hin)))) (by decide)
  case ignored =>
    obtain rfl : v = t := by rw [← ht, hearSerial_held (s := v) hbar hu, hearHeld_ignored (s := v) hserves]
    exact ⟨rfl, rfl, rfl⟩
  case permitted =>
    obtain ⟨q, hq⟩ := Option.ne_none_iff_exists'.mp hq
    have hstart := ht.symm.trans (hearSerial_permitted (s := v) hbar hu hq)
    refine ⟨fun hin => ?_, fun hin hpeer => ?_, fun hin hpeer hbeat => ?_, fun hin hpeer hbeat hfull => ?_⟩
    · exact alone_of_occur (hstart.trans (hearPermitted_outOfReach (mt hreach.mp hin))) (by decide)
    · exact alone_of_occur (hstart.trans (hearPermitted_duplicate (hreach.mpr hin) hpeer)) (by decide)
    · exact alone_of_occur (hstart.trans (hearPermitted_yielded (hreach.mpr hin) hpeer hbeat)) (by decide)
    · have hnone : allocatableUnit v = none := find_allUnits_eq_none hfull
      exact alone_of_occur (hstart.trans (hearPermitted_full (hreach.mpr hin) hpeer hbeat hnone)) (by decide)
  case stranger =>
    have hstart := ht.symm.trans (hearSerial_stranger (s := v) hbar hu hq)
    by_cases hknown : ∃ e ∈ s.ec.strangers, e.serial = x
    · rw [hearStranger_again (s := v) hknown] at hstart
      subst hstart
      refine ⟨rfl, rfl, fun _ => ⟨rfl, rfl⟩, fun hnew => ?_⟩
      obtain ⟨e, he, hx⟩ := hknown
      exact absurd hx (hnew e he)
    · rw [hearStranger_first (s := v) fun e he hx => hknown ⟨e, he, hx⟩] at hstart
      subst hstart
      have r := occur_reports .stranger (some x) { v with ec := { v.ec with strangers :=
        (if 8 ≤ v.ec.strangers.length then v.ec.strangers.drop 1 else v.ec.strangers) ++ [⟨x, 0⟩] } }
      exact ⟨r.ut, r.tli, fun h => absurd h hknown, fun _ => ⟨by rw [r.ec]; rfl, (occurredOnce_occur (by decide)).earlier rfl⟩⟩

end Sys2Proof.Machine

/-!
PROOFS. Ranging: an attempt that succeeds (O23) or fails (O24), and the claims that are queued again (O25).
-/
namespace Sys2Proof.Machine

-- One proof after another, as in the tests: side by side, the proofs of one text hold more stacks than the check's memory has room for.
set_option Elab.async false

/-! ### Writes one upon another -/

theorem modU_modU (u : UnitNo) (f g : UnitRecord → UnitRecord) (s : State) :
    modU u f (modU u g s) = modU u (fun r => f (g r)) s := by
  unfold modU setU getU
  simp

theorem modU_id (u : UnitNo) (s : State) : modU u (fun r => r) s = s := by
  unfold modU setU getU
  simp [Vector.get_eq_getElem]

/-! ### A held claim (R51, R161) -/

/-- Reports upon records that stand as they are afterwards. -/
theorem OnlyReports.withRecords {s t : State} (h : OnlyReports s t) (r : Vector UnitRecord 64) :
    OnlyReports { s with ut := r } { t with ut := r } := { h with ut := rfl }

/-- Beside the record's own refresh, a held claim is a report. -/
theorem queueHeld_reports (u : UnitNo) (s : State) : OnlyReports { s with ut := (queueHeld u s).ut } (queueHeld u s) := by
  unfold queueHeld
  split
  · exact .refl s
  simp only
  split
  · rw [(offerNotice_reports _ s).ut]
    exact offerNotice_reports _ s
  · exact (offerNotice_reports _ s).withRecords _

/-- A held claim writes no more of the record than its refresh. -/
theorem getU_queueHeld (u : UnitNo) (s : State) : ∃ n, getU u (queueHeld u s) = { getU u s with claimRefresh := n }
    ∧ (n = (getU u s).claimRefresh ∨ n = 4000) := by
  unfold queueHeld
  split
  · exact ⟨_, rfl, .inl rfl⟩
  simp only
  split
  · exact ⟨_, (offerNotice_reports _ s).getU u, .inl rfl⟩
  · rw [getU_modU_same, (offerNotice_reports _ s).getU]
    split
    · exact ⟨_, rfl, .inr rfl⟩
    · exact ⟨_, rfl, .inl rfl⟩

theorem getU_queueHeld_of_refresh {u : UnitNo} {s : State} (h : (getU u s).claimRefresh = 4000) :
    getU u (queueHeld u s) = getU u s := by
  obtain ⟨n, hn, hcase⟩ := getU_queueHeld u s
  have : n = (getU u s).claimRefresh := hcase.elim id fun h' => h'.trans h.symm
  rw [hn, this]

/-! ### An EQD (R62, R66) -/

/-- An EQD joins a queue with room and becomes the record's EqD, held for four rounds; a full queue refuses it. -/
theorem offerEqd_cases (u : UnitNo) (q : Nat) (s : State) :
    (s.tli.queue.length < 64 ∧ offerEqd u q s = modU u (fun r => { r with eqd := some q, corrHold := 4 })
        (s.withQueue (enqueue ⟨.eqd u q, .ec, .plain⟩ s.tli.queue)))
      ∨ (64 ≤ s.tli.queue.length ∧ offerEqd u q s = s) := by
  unfold offerEqd
  by_cases h : queueHasRoom 1 s = true
  · rw [if_pos h, offerOrder, if_pos h]
    exact .inl ⟨by rw [queueHasRoom_iff] at h; omega, rfl⟩
  · rw [if_neg h]
    exact .inr ⟨by rw [queueHasRoom_iff] at h; omega, rfl⟩

/-! ### Findings (R61) -/

/-- R61's tests, as the statements put them. -/
theorem rangingAccepted_iff (u : UnitNo) (start : Nat) (b : Burst) :
    RangingAccepted u start b ↔ foundIn (start - 8) 28 (some b) = some b ∧ acceptsRanging u start b = true := by
  simp [RangingAccepted, foundIn, DelimiterIn, acceptsRanging, and_assoc]

section
variable {n : Nat} {u : UnitNo} {found : Option Burst} {b : Burst} {s : State} {p : Plan} {g : GrantRecord} {prov final : Nat}

theorem exec_rangingAttempt (hheld : s.held = false) (hp : findPlan n s = some p)
    (hg : p.grants.find? (fun g => g.kind == .ranging && g.unit == u.val) = some g) :
    exec (.rangingAttempt n u found) s = .next (judgeRanging u g.start found s) := by
  refine (unlessHeld_of_not_held hheld _).trans ?_
  simp only [rangingStep, hp, hg]

/-- The attempt is no longer pending once its findings are judged (R57). -/
def attemptJudged (u : UnitNo) (s : State) : State := modE u (fun e => { e with attemptPending := false }) s

theorem judgeRanging_idle (h : (getE u s).attemptPending = false) : judgeRanging u g.start found s = s := by
  simp [judgeRanging, h]

theorem judgeRanging_success (h : (getE u s).attemptPending = true) (hq : (getU u s).provEqd = some prov)
    (hb : RangingAccepted u g.start b) (hfinal : (final : Int) = (prov : Int) - burstDelta g.start b)
    (hreach : final ≤ teq s.sc.reach) :
    judgeRanging u g.start (some b) s = rangingSuccess u prov final (attemptJudged u s) := by
  obtain ⟨hfound, hacc⟩ := (rangingAccepted_iff u g.start b).mp hb
  have hin : (0 : Int) ≤ (final : Int) ∧ (final : Int) ≤ (teq s.sc.reach : Int) := by omega
  simp only [judgeRanging, h, hfound, hq, hacc, ← hfinal, hin, Bool.not_true, Bool.false_eq_true, if_false, if_true, and_self,
    Int.toNat_natCast]
  rfl

theorem judgeRanging_outOfReach (h : (getE u s).attemptPending = true) (hq : (getU u s).provEqd = some prov)
    (hb : RangingAccepted u g.start b)
    (hout : (prov : Int) - burstDelta g.start b < 0 ∨ (teq s.sc.reach : Int) < (prov : Int) - burstDelta g.start b) :
    judgeRanging u g.start (some b) s = rangingOutOfReach u (attemptJudged u s) := by
  obtain ⟨hfound, hacc⟩ := (rangingAccepted_iff u g.start b).mp hb
  have hin : ¬((0 : Int) ≤ (prov : Int) - burstDelta g.start b ∧ (prov : Int) - burstDelta g.start b ≤ (teq s.sc.reach : Int)) := by
    omega
  simp only [judgeRanging, h, hfound, hq, hacc, hin, Bool.not_true, Bool.false_eq_true, if_false, if_true]
  rfl

theorem foundIn_some {first length : Nat} (h : foundIn first length found = some b) : found = some b := by
  unfold foundIn at h
  split at h
  · cases h
  · split at h
    · exact h
    · cases h

theorem judgeRanging_failure (h : (getE u s).attemptPending = true) (hb : ∀ b, found = some b → ¬RangingAccepted u g.start b) :
    judgeRanging u g.start found s = rangingFailure u (attemptJudged u s) := by
  rw [judgeRanging, if_neg (by simp [h])]
  simp only
  split
  next b prov hfound hq =>
    obtain rfl := foundIn_some hfound
    have hacc : ¬acceptsRanging u g.start b = true := fun hacc => hb b rfl ((rangingAccepted_iff _ _ _).mpr ⟨hfound, hacc⟩)
    rw [if_neg hacc]
    rfl
  next => rfl

end

/-! ### Success (R62) -/

/-- A record that becomes ACTIVE (R62). -/
def activated (r : UnitRecord) : UnitRecord :=
  { r with state := .active, provEqd := none, attempts := 0, credit := 3072, silent := 0, streak := 0, poll := 8,
           claimRefresh := 4000 }

/-- What a success writes in the record before its held claim is offered, when the EQD finds room or when it does not. -/
def rangedRecord (prov final : Nat) (room : Bool) (r : UnitRecord) : UnitRecord :=
  activated { r with eqd := some (if room then final else prov), corrHold := if final ≠ prov ∧ room = true then 4 else r.corrHold }

/-- The queue after the EQD of a success. -/
def rangedQueue (u : UnitNo) (prov final : Nat) (room : Bool) (q : List QueuedOrder) : List QueuedOrder :=
  if final ≠ prov ∧ room = true then enqueue ⟨.eqd u final, .ec, .plain⟩ q else q

/-- A success up to its held claim. -/
def rangedActive (u : UnitNo) (x : Serial) (prov final : Nat) (s : State) : State :=
  let room := decide (s.tli.queue.length < 64)
  removePermit x (leaveRangingQueue u (modU u (rangedRecord prov final room)
    (s.withQueue (rangedQueue u prov final room s.tli.queue))))

theorem rangingSuccess_eq {u : UnitNo} {x : Serial} {prov final : Nat} {s : State} (hx : (getU u s).serial = some x) :
    rangingSuccess u prov final s =
      (let v := modU u (fun r => { r with everActive := true }) (queueHeld u (rangedActive u x prov final s))
      if (getU u s).everActive then v else occur .unitJoined (some x) v) := by
  have hmoved : modU u activated
      (leaveRangingQueue u (if final = prov then modU u (fun r => { r with eqd := some prov }) s
        else offerEqd u final (modU u (fun r => { r with eqd := some prov }) s)))
      = leaveRangingQueue u (modU u (rangedRecord prov final (decide (s.tli.queue.length < 64)))
          (s.withQueue (rangedQueue u prov final (decide (s.tli.queue.length < 64)) s.tli.queue))) := by
    have hcomm : ∀ f v, modU u f (leaveRangingQueue u v) = leaveRangingQueue u (modU u f v) := fun _ _ => rfl
    have hwith : ∀ f (v : State) q, (modU u f v).withQueue q = modU u f (v.withQueue q) := fun _ _ _ => rfl
    rw [hcomm]
    refine congrArg (leaveRangingQueue u) ?_
    by_cases heq : final = prov
    · subst heq
      simp only [if_true, modU_modU, rangedQueue, ne_eq, not_true_eq_false, false_and, if_false]
      refine congrArg (fun f => modU u f s) (funext fun r => ?_)
      simp [rangedRecord, activated]
    · rw [if_neg heq]
      rcases offerEqd_cases u final (modU u (fun r => { r with eqd := some prov }) s) with ⟨hroom, h⟩ | ⟨hfull, h⟩
      · have hlen : s.tli.queue.length < 64 := hroom
        rw [h, hwith, modU_modU, modU_modU]
        simp only [rangedQueue, hlen, decide_true, heq, ne_eq, not_false_eq_true, and_self, if_true, modU_tli]
        refine congrArg (fun f => modU u f _) (funext fun r => ?_)
        simp [rangedRecord, activated, heq]
      · have hlen : ¬s.tli.queue.length < 64 := Nat.not_lt.mpr hfull
        rw [h, modU_modU]
        simp only [rangedQueue, hlen, decide_false, Bool.false_eq_true, and_false, if_false]
        refine congrArg (fun f => modU u f s) (funext fun r => ?_)
        simp [rangedRecord, activated]
  rw [rangingSuccess]
  simp only [hx]
  exact congrArg (fun w =>
    let v := modU u (fun r => { r with everActive := true }) (queueHeld u (removePermit x w))
    if (getU u s).everActive then v else occur .unitJoined (some x) v) hmoved

theorem getU_rangedActive (u : UnitNo) (x : Serial) (prov final : Nat) (s : State) :
    getU u (rangedActive u x prov final s) = rangedRecord prov final (decide (s.tli.queue.length < 64)) (getU u s) :=
  getU_modU_same _ _ _

theorem rangedActive_otherUnits (u : UnitNo) (x : Serial) (prov final : Nat) (s : State) :
    OtherUnitsSame u s (rangedActive u x prov final s) :=
  otherUnits_of_same (fun v hv => (getU_modU u v _ _).trans (if_neg hv.symm)) fun _ _ => rfl

/-- Settles O23: the record as `rangedActive` leaves it, through the held claim and the UNIT_JOINED of the first time. -/
theorem rangingSuccessMakesActive : Obligations.RangingSuccessMakesActive := by
  unfold Obligations.RangingSuccessMakesActive
  intro n u b s p g prov final x hheld hp hg hpending hx hq hb hfinal hreach
  let a := rangedActive u x prov final (attemptJudged u s)
  let v := modU u (fun r => { r with everActive := true }) (queueHeld u a)
  let t := if (getU u s).everActive then v else occur .unitJoined (some x) v
  have hstep : judgeRanging u g.start (some b) s = t :=
    (judgeRanging_success hpending hq hb hfinal hreach).trans (rangingSuccess_eq (s := attemptJudged u s) hx)
  have hUa : getU u a = rangedRecord prov final (decide (s.tli.queue.length < 64)) (getU u s) := getU_rangedActive u x prov final _
  have hUv : getU u v = { getU u a with everActive := true } := by
    rw [getU_modU_same, getU_queueHeld_of_refresh (by rw [hUa]; rfl)]
  have r : OnlyReports v t := by
    by_cases h : (getU u s).everActive = true
    · rw [show t = v from if_pos h]; exact .refl v
    · rw [show t = occur .unitJoined (some x) v from if_neg h]; exact occur_reports _ _ _
  have ra : OnlyReports { a with ut := (queueHeld u a).ut } (queueHeld u a) := queueHeld_reports u a
  have hU : getU u t = { rangedRecord prov final (decide (s.tli.queue.length < 64)) (getU u s) with everActive := true } := by
    rw [r.getU, hUv, hUa]
  have htli : t.tli.queue = rangedQueue u prov final (decide (s.tli.queue.length < 64)) s.tli.queue :=
    congrArg TreeLine.queue (r.tli.trans ra.tli)
  have hec : ∃ l, t.ec = { a.ec with lostClaims := l } := ⟨t.ec.lostClaims, r.ec.trans (by rw [show v.ec = _ from ra.ec])⟩
  obtain ⟨l, hec⟩ := hec
  refine ⟨t, (exec_rangingAttempt hheld hp hg).trans (by rw [hstep]), ?_⟩
  rw [hU, htli, hec]
  refine ⟨rfl, hx, rfl, rfl, rfl, rfl, rfl, rfl, rfl, rfl, ?_, ?_, fun hne hroom => ?_, fun hsame => ?_, rfl, ?_, rfl, fun hroom => ?_,
    fun hfirst => ?_, ?_⟩
  · simp [rangedRecord, activated]
  · simp [rangedRecord, activated]
  · rw [rangedQueue, if_pos ⟨hne, decide_eq_true hroom⟩]
    exact enqueue_perm _ _
  · rw [rangedQueue, if_neg]
    rintro ⟨hne, hroom⟩
    have := of_decide_eq_true hroom
    omega
  · have hE : getE u t = getE u a := getE_congr (by rw [hec]) u
    rw [hE]
    exact congrArg EcUnit.attemptPending ((getE_leaveRangingQueue u u _).trans (if_pos rfl))
  · have hxa : (getU u a).serial = some x := by rw [hUa]; exact hx
    have hlevel : (getU u a).level = (getU u s).level := by rw [hUa]; rfl
    have hrooma : OutboxRoom 2 a := hroom
    have hclaim := queueHeld_inOutbox hxa (hrooma.mono (by omega))
    rw [hlevel] at hclaim
    by_cases h : (getU u s).everActive = true
    · rw [show t = v from if_pos h]
      exact hclaim.congr rfl
    · rw [show t = occur .unitJoined (some x) v from if_neg h]
      exact InOutbox.occur (hclaim.congr rfl) ((queueHeld_keepsRoom hxa hrooma).congr rfl)
  · rw [show t = occur .unitJoined (some x) v from if_neg (by simp [hfirst])]
    exact (occurredOnce_occur (by decide)).earlier (getK_queueHeld (by decide))
  · exact ((rangedActive_otherUnits u x prov final (attemptJudged u s)).trans
      ((queueHeld_otherUnits u a).trans (modU_otherUnits u _ _))).trans (r.otherUnits u)

/-! ### Failure (R63 to R65) -/

/-- A record that becomes LOST after its fourth failure (R64). -/
def lostRecord (r : UnitRecord) : UnitRecord :=
  { r with state := .lost, lostHold := 240000, poll := 64, provEqd := none, attempts := 0, claimRefresh := 4000 }

/-- A returning record's fourth failure up to its held claim (R64). -/
def lostRanging (u : UnitNo) (s : State) : State :=
  match (getU u s).eqd with
  | some q =>
    if (getU u s).provEqd = some q then modU u lostRecord (leaveRangingQueue u s)
    else offerEqd u q (modU u lostRecord (leaveRangingQueue u s))
  | none => modU u lostRecord (leaveRangingQueue u s)

/-- The record of a lost unit keeps its EqD, and the EQD that names it is offered where the premises unit was sent another. -/
theorem lostRanging_writes (u : UnitNo) (s : State) : ∃ c queue,
    lostRanging u s = modU u (fun r => { lostRecord r with corrHold := c }) ((leaveRangingQueue u s).withQueue queue)
      ∧ ∀ q, (getU u s).eqd = some q →
        ((getU u s).provEqd ≠ some q → s.tli.queue.length < 64 → c = 4 ∧ queue = enqueue ⟨.eqd u q, .ec, .plain⟩ s.tli.queue)
        ∧ ((getU u s).provEqd = some q ∨ 64 ≤ s.tli.queue.length → c = (getU u s).corrHold ∧ queue = s.tli.queue) := by
  have hkept : modU u lostRecord (leaveRangingQueue u s)
      = modU u (fun r => { lostRecord r with corrHold := (getU u s).corrHold }) ((leaveRangingQueue u s).withQueue s.tli.queue) := rfl
  unfold lostRanging
  split
  next q hq =>
    have hinj : ∀ q', (getU u s).eqd = some q' → q' = q := fun q' h => Option.some.inj (h.symm.trans hq)
    by_cases hprov : (getU u s).provEqd = some q
    · rw [if_pos hprov]
      refine ⟨_, _, hkept, fun q' h => ?_⟩
      obtain rfl := hinj q' h
      exact ⟨fun hne => absurd hprov hne, fun _ => ⟨rfl, rfl⟩⟩
    · rw [if_neg hprov]
      rcases offerEqd_cases u q (modU u lostRecord (leaveRangingQueue u s)) with ⟨hroom, h⟩ | ⟨hfull, h⟩
      · refine ⟨4, enqueue ⟨.eqd u q, .ec, .plain⟩ s.tli.queue, ?_, fun q' h' => ?_⟩
        · have hwith : ∀ f (v : State) l, (modU u f v).withQueue l = modU u f (v.withQueue l) := fun _ _ _ => rfl
          have hrecord : lostRecord (getU u s) = { lostRecord (getU u s) with eqd := some q } := by
            rw [← hq]
            rfl
          rw [h, hwith, modU_modU]
          show setU u _ _ = setU u _ _
          refine congrArg (fun r => setU u r _) ?_
          show { lostRecord (getU u s) with eqd := some q, corrHold := 4 } = { lostRecord (getU u s) with corrHold := 4 }
          rw [hrecord]
        · obtain rfl := hinj q' h'
          exact ⟨fun _ _ => ⟨rfl, rfl⟩, fun hor => absurd hroom (Nat.not_lt.mpr (hor.resolve_left hprov))⟩
      · rw [h]
        refine ⟨_, _, hkept, fun q' h' => ?_⟩
        exact ⟨fun _ hroom => absurd hroom (Nat.not_lt.mpr hfull), fun _ => ⟨rfl, rfl⟩⟩
  next hnone => exact ⟨_, _, hkept, fun q h => by rw [hnone] at h; cases h⟩

section
variable {u : UnitNo} {s : State}

/-- The failure is counted (R64). -/
def failureCounted (u : UnitNo) (s : State) : State := modU u (fun r => { r with attempts := r.attempts + 1 }) s

theorem rangingFailure_again (h : (getU u s).attempts < 3) : rangingFailure u s
    = { failureCounted u s with
        ec := { (failureCounted u s).ec with rangingQueue := s.ec.rangingQueue.filter (· ≠ u) ++ [u] } } := by
  have hlt : (getU u (failureCounted u s)).attempts < 4 := by
    rw [failureCounted, getU_modU_same]
    simp only
    omega
  rw [rangingFailure]
  exact if_pos hlt

theorem rangingFailure_last (h : 3 ≤ (getU u s).attempts) : rangingFailure u s
    = if (getU u s).returning then rangingLost u (occur .rangingFailed (getU u s).serial (failureCounted u s))
      else directFree u (occur .rangingFailed (getU u s).serial (failureCounted u s)) := by
  have hlt : ¬(getU u (failureCounted u s)).attempts < 4 := by
    rw [failureCounted, getU_modU_same]
    simp only
    omega
  rw [rangingFailure]
  exact if_neg hlt

theorem endService_attempt (h : inService (getU u s) = true ∨ neverServed (getU u s) = true) :
    (getE u (endService u s)).attemptPending = false := by
  rcases h with h | h
  · rw [endService_of_inService h, retire_attempt]
  · rw [endService_of_neverServed h]
    obtain ⟨-, -, -, -, hattempt, -⟩ := freedDirectly_directFree u s
    exact hattempt

end

/-- Settles O24: no attempt, a failure that counts, a fourth one, and an EqD out of reach. -/
theorem rangingFailureIsCounted : Obligations.RangingFailureIsCounted := by
  unfold Obligations.RangingFailureIsCounted
  intro n u found s p g hheld hp hg
  refine ⟨fun hidle => ?idle, fun hpending hstate hbad => ?failure, fun b x prov hfound hb hpending hstate hx hq hout => ?outOfReach⟩
  case idle => rw [exec_rangingAttempt hheld hp hg, judgeRanging_idle hidle]
  case failure =>
    let j := attemptJudged u s
    have hjudge : judgeRanging u g.start found s = rangingFailure u j := judgeRanging_failure hpending hbad
    refine ⟨rangingFailure u j, (exec_rangingAttempt hheld hp hg).trans (by rw [hjudge]), ?_⟩
    have hjE : (getE u j).attemptPending = false := congrArg EcUnit.attemptPending (getE_modE_same _ _ _)
    have hcount : OtherUnitsSame u s (failureCounted u j) := (otherUnits_of_tables (t := j)).trans (modU_otherUnits u _ j)
    by_cases hfew : (getU u s).attempts < 3
    · rw [rangingFailure_again (s := j) hfew]
      exact ⟨hjE, hcount.trans otherUnits_of_tables, fun _ => ⟨getU_modU_same u (fun r => { r with attempts := r.attempts + 1 }) j, rfl, rfl, rfl⟩,
        fun hmany => absurd hfew (Nat.not_lt.mpr hmany)⟩
    have hmany : 3 ≤ (getU u s).attempts := Nat.not_lt.mp hfew
    let f := occur .rangingFailed (getU u s).serial (failureCounted u j)
    have r : OnlyReports (failureCounted u j) f := occur_reports _ _ _
    have honce : OccurredOnce .rangingFailed s f := (occurredOnce_occur (by decide)).earlier rfl
    have hUf : getU u f = { getU u s with attempts := (getU u s).attempts + 1 } := (r.getU u).trans (getU_modU_same _ _ _)
    cases hret : (getU u s).returning with
    | false =>
      have hfreed := freedDirectly_directFree u f
      have hlast : rangingFailure u j = directFree u f :=
        (rangingFailure_last (s := j) hmany).trans (if_neg (by rw [show getU u j = getU u s from rfl, hret]; simp))
      rw [hlast]
      obtain ⟨-, -, -, hqueue, hattempt, -⟩ := id hfreed
      exact ⟨hattempt, (hcount.trans (r.otherUnits u)).trans (directFree_otherUnits u f), fun h => absurd h hfew,
        fun _ => ⟨honce.later (getK_directFree (by decide)), hqueue, fun h => by simp at h,
          fun _ => hfreed.of_state (by rw [hUf])⟩⟩
    | true =>
      have hlast : rangingFailure u j = queueHeld u (lostRanging u f) :=
        (rangingFailure_last (s := j) hmany).trans (if_pos hret)
      rw [hlast]
      obtain ⟨c, queue, hlost, heqd⟩ := lostRanging_writes u f
      generalize lostRanging u f = w at hlost ⊢
      have hUw : getU u w = { lostRecord (getU u f) with corrHold := c } :=
        (congrArg (getU u) hlost).trans (getU_modU_same _ _ _)
      have hrefresh : (getU u w).claimRefresh = 4000 := by rw [hUw]; rfl
      have hUt : getU u (queueHeld u w) = { lostRecord (getU u s) with corrHold := c } := by
        rw [getU_queueHeld_of_refresh hrefresh, hUw, hUf]
        rfl
      have rq := queueHeld_reports u w
      have hother : OtherUnitsSame u f w := by
        rw [hlost]
        exact (otherUnits_of_tables (t := (leaveRangingQueue u f).withQueue queue)).trans (modU_otherUnits u _ _)
      refine ⟨?_, (hcount.trans (r.otherUnits u)).trans (hother.trans (queueHeld_otherUnits u w)), fun h => absurd h hfew,
        fun _ => ⟨?_, ?_, fun _ => ?_, fun h => by simp at h⟩⟩
      · rw [getE_congr (s := w) (by rw [rq.ec]) u, hlost]
        exact congrArg EcUnit.attemptPending ((getE_leaveRangingQueue u u f).trans (if_pos rfl))
      · refine honce.later ((getK_queueHeld (by decide)).trans ?_)
        rw [hlost]
        rfl
      · rw [rq.ec, hlost]
        simp
      · rw [hUt]
        refine ⟨rfl, rfl, rfl, rfl, rfl, rfl, rfl, rfl, rfl, rfl, fun x hx hroom => ?_, fun q hq => ?_⟩
        · have hxw : (getU u w).serial = some x := by rw [hUw, hUf]; exact hx
          have hlevel : (getU u w).level = (getU u s).level := by rw [hUw, hUf]; rfl
          have hroomf : OutboxRoom 1 f := occur_keepsRoom (s := failureCounted u j) hroom
          rw [← hlevel]
          exact queueHeld_inOutbox hxw (hroomf.congr (by rw [hlost]; rfl))
        · have htli : (queueHeld u w).tli = { s.tli with queue := queue } := by
            rw [rq.tli]
            show w.tli = _
            rw [hlost]
            show { f.tli with queue := queue } = _
            rw [r.tli]
            rfl
          have hqueue : f.tli.queue = s.tli.queue := by rw [r.tli]; rfl
          rw [hUf, hqueue] at heqd
          obtain ⟨hoffered, hkept⟩ := heqd q hq
          refine ⟨fun hne hroom => ?_, fun hor => ?_⟩
          · obtain ⟨rfl, rfl⟩ := hoffered hne hroom
            rw [htli]
            exact ⟨rfl, enqueue_perm _ _⟩
          · obtain ⟨rfl, rfl⟩ := hkept hor
            rw [htli]
            exact ⟨rfl, rfl⟩
  case outOfReach =>
    subst hfound
    let f := occur .outOfReach (getU u s).serial (attemptJudged u s)
    have hjudge : judgeRanging u g.start (some b) s = endService u f := judgeRanging_outOfReach hpending hq hb hout
    have r : OnlyReports (attemptJudged u s) f := occur_reports _ _ _
    have hUf : getU u f = getU u s := r.getU u
    have hservice : inService (getU u f) = true ∨ neverServed (getU u f) = true := by
      rw [hUf]
      cases hret : (getU u s).returning <;> simp [inService, serves, neverServed, hstate, hret]
    refine ⟨endService u f, (exec_rangingAttempt hheld hp hg).trans (by rw [hjudge]), ?_, ?_, ?_, ?_, fun hret => ?_, fun hret => ?_⟩
    · have honce : OccurredOnce .outOfReach s f := (occurredOnce_occur (by decide)).earlier rfl
      exact honce.later (getK_endService (by decide))
    · exact ((otherUnits_of_tables (t := attemptJudged u s)).trans (r.otherUnits u)).trans (endService_otherUnits u f)
    · rw [endService_permits, r.ec]
      rfl
    · exact endService_attempt hservice
    · rw [endService_of_inService (by rw [hUf]; simp [inService, serves, hstate, hret])]
      have hsame : SameService u s (attemptJudged u s) := sameService_of_account rfl rfl rfl rfl
      exact (leftService_retire u f).of_same (hsame.trans (r.search.sameService u))
    · rw [endService_of_neverServed (by rw [hUf]; simp [neverServed, hstate, hret])]
      refine ⟨(freedDirectly_directFree u f).of_state (by rw [hUf]), fun hroom => ?_⟩
      have hclaim := directFree_inOutbox (u := u) (s := f) (x := x) (by rw [hUf]; exact hx)
        (occur_keepsRoom (s := attemptJudged u s) hroom)
      rwa [hUf] at hclaim

/-! ### Claims queued again (R51, R161) -/

section
variable {x : Serial} {s : State} {c : LostClaim}

/-- The lost claim is taken up. -/
def claimTaken (c : LostClaim) (s : State) : State := { s with ec := { s.ec with lostClaims := s.ec.lostClaims.erase c } }

theorem claimReofferStep_released (hc : s.ec.lostClaims.find? (fun c => c.serial == x && c.due) = some c) (hk : c.kind = .released) :
    claimReofferStep x s = if (findUnit x s).isSome then claimTaken c s
      else queueReleased c.owner x c.level (claimTaken c s) := by
  have hfind : s.ec.lostClaims.find? (dueClaim x) = some c := hc
  rw [claimReofferStep]
  simp only [hfind, hk]
  rfl

theorem claimReofferStep_claiming (hc : s.ec.lostClaims.find? (fun c => c.serial == x && c.due) = some c) (hk : c.kind = .claiming) :
    claimReofferStep x s = if stillClaiming c (claimTaken c s) then queueClaiming c.owner (claimTaken c s) else claimTaken c s := by
  have hfind : s.ec.lostClaims.find? (dueClaim x) = some c := hc
  rw [claimReofferStep]
  simp only [hfind, hk]
  rfl

theorem claimReofferStep_held (hc : s.ec.lostClaims.find? (fun c => c.serial == x && c.due) = some c) (hk : c.kind = .held) :
    claimReofferStep x s = claimTaken c s := by
  have hfind : s.ec.lostClaims.find? (dueClaim x) = some c := hc
  rw [claimReofferStep]
  simp only [hfind, hk]
  rfl

/-- A claiming notice is offered under the next number, which its record then waits for (R51, R52). -/
theorem queueClaiming_of_serial {u : UnitNo} (hx : (getU u s).serial = some x) : queueClaiming u s
    = offerNotice (.claim x (getU u s).level .claiming u) (modE u (fun e => { e with claimRef := some s.sbp.nextRef }) s) := by
  rw [queueClaiming]
  simp only [hx]

/-- Whatever comes of the lost claim, it is no more than a claim taken up, a number noted and a notice offered. -/
theorem claimReofferStep_cases (hc : s.ec.lostClaims.find? (fun c => c.serial == x && c.due) = some c) :
    claimReofferStep x s = claimTaken c s
      ∨ ∃ b v, claimReofferStep x s = offerNotice b v ∧ b.cls ≠ 6 ∧ v.ut = s.ut ∧ v.sbp = s.sbp
          ∧ v.ec.lostClaims = s.ec.lostClaims.erase c := by
  cases hk : c.kind with
  | held => exact .inl (claimReofferStep_held hc hk)
  | released =>
    rw [claimReofferStep_released hc hk]
    split
    · exact .inl rfl
    · exact .inr ⟨_, claimTaken c s, rfl, by simp [NoticeBody.cls], rfl, rfl, rfl⟩
  | claiming =>
    rw [claimReofferStep_claiming hc hk]
    split
    · cases hx : (getU c.owner (claimTaken c s)).serial with
      | none =>
        left
        rw [queueClaiming]
        simp only [hx]
      | some y => exact .inr ⟨_, _, queueClaiming_of_serial hx, by simp [NoticeBody.cls], rfl, rfl, rfl⟩
    · exact .inl rfl

end

/-- Settles O25: the refresh of a serving record, and a lost claim by its kind. -/
theorem claimNoticesAreQueuedAgain : Obligations.ClaimNoticesAreQueuedAgain := by
  unfold Obligations.ClaimNoticesAreQueuedAgain
  refine ⟨fun u s x hheld hserves hrefresh hx => ?refresh, fun x s c hheld hc => ?reoffer⟩
  case refresh =>
    have hstep : refreshStep u s = modU u (fun r => { r with claimRefresh := 4000 }) (queueHeld u s) := by
      simp [refreshStep, refreshExpired, hserves, hrefresh]
    refine ⟨_, (unlessHeld_of_not_held hheld _).trans (by rw [hstep]), ?_, ?_, fun hroom => ⟨?_, ?_⟩⟩
    · obtain ⟨n, hn, -⟩ := getU_queueHeld u s
      rw [getU_modU_same, hn]
    · exact (queueHeld_otherUnits u s).trans (modU_otherUnits u _ _)
    · exact (queueHeld_inOutbox hx hroom).congr rfl
    · rw [queueHeld_room hx hroom, offerNotice_room (by simp [NoticeBody.cls]) hroom.lt]
      rfl
  case reoffer =>
    refine ⟨claimReofferStep x s, unlessHeld_of_not_held hheld _, ?_, fun hroom => ?_, fun hk hu hroom => ?_, fun hk hu => ?_,
      fun hk hstate hstarted href hx hroom => ?_, fun hk hdone => ?_⟩
    · rcases claimReofferStep_cases hc with h | ⟨b, v, h, -, hut, -⟩ <;> rw [h]
      · rfl
      · rw [(offerNotice_reports b v).ut, hut]
    · rcases claimReofferStep_cases hc with h | ⟨b, v, h, hb, -, hsbp, hlost⟩ <;> rw [h]
      · rfl
      · rw [offerNotice_room hb (by rw [hsbp]; exact hroom.lt)]
        exact hlost
    · rw [claimReofferStep_released hc hk, if_neg (by simp [hu])]
      exact queueReleased_inOutbox (s := claimTaken c s) hroom
    · rw [claimReofferStep_released hc hk, if_pos (by rwa [Option.isSome_iff_ne_none])]
      rfl
    · have hstill : stillClaiming c (claimTaken c s) = true := by
        have href' : (getE c.owner (claimTaken c s)).claimRef = some c.ref := href
        have hstate' : (getU c.owner (claimTaken c s)).state = .claiming := hstate
        have hstarted' : (getU c.owner (claimTaken c s)).settleStarted = false := hstarted
        simp [stillClaiming, href', hstate', hstarted']
      have hx' : (getU c.owner (claimTaken c s)).serial = some x := hx
      rw [claimReofferStep_claiming hc hk, if_pos hstill, queueClaiming_of_serial hx']
      refine ⟨offerNotice_inOutbox (by simp [NoticeBody.cls]) hroom.lt, ?_⟩
      rw [(offerNotice_reports _ _).getE, getE_modE_same]
      rfl
    · have hstill : ¬stillClaiming c (claimTaken c s) = true := by
        rcases hdone with h | h
        · have h' : (getU c.owner (claimTaken c s)).state ≠ .claiming := h
          simp [stillClaiming, h']
        · have h' : (getU c.owner (claimTaken c s)).settleStarted = true := h
          simp [stillClaiming, h']
      rw [claimReofferStep_claiming hc hk, if_neg hstill]
      rfl

end Sys2Proof.Machine

/-!
PROOFS. The Alarm Table's clearing and re-offer (O50), the phases, the settings, and the end of a restart (O51, O52, O54).
-/
namespace Sys2Proof.Machine

-- One proof after another, as in the tests: side by side, the proofs of one text hold more stacks than the check's memory has room for.
set_option Elab.async false

/-! ### Orders and the phase (R179) -/

theorem orderEffect_early {o : Order} {s : State} (hp : s.sc.phase = .listen ∨ s.sc.phase = .enlist) (hm : isMalformed o = false) :
    orderEffect o s = if beforeServing o then ownerActs o s else (s, .notReady, .none) := by
  rcases hp with hp | hp <;> simp [orderEffect, hm, hp]

theorem orderEffect_restarting {o : Order} {s : State} (hp : s.sc.phase = .restarting) (hm : isMalformed o = false) :
    orderEffect o s = if whileRestarting o then ownerActs o s else (s, .busy, .none) := by
  simp [orderEffect, hm, hp]

/-- A kind that may come while the part restarts reaches its owner in SERVING and RESTARTING. -/
theorem orderEffect_late {o : Order} {s : State} (hp : s.sc.phase = .serving ∨ s.sc.phase = .restarting)
    (ho : whileRestarting o = true) (hm : isMalformed o = false) : orderEffect o s = ownerActs o s := by
  rcases hp with hp | hp
  · exact orderEffect_serving hp o
  · rw [orderEffect_restarting hp hm, if_pos ho]

/-! ### ALARM_CLEAR (R189) -/

theorem alarmOfByte_number (k : AlarmKind) {b : Byte} (h : alarmNumber k = b.toNat) : alarmOfByte b = some k := by
  obtain rfl : b = BitVec.ofNat 8 (alarmNumber k) := by rw [h]; simp
  cases k <;> rfl

theorem alarmNumber_range (k : AlarmKind) : 1 ≤ alarmNumber k ∧ alarmNumber k ≤ 20 := by cases k <;> decide

theorem alarmOfByte_some {k : AlarmKind} {b : Byte} (h : alarmOfByte b = some k) : alarmNumber k = b.toNat := by
  simpa using List.find?_some h

theorem masked_congr {k : AlarmKind} {s t : State} (h : t.sc.settings = s.sc.settings) : masked k t = masked k s := by
  simp only [masked, inForce, h]

section
variable {k : AlarmKind} {b : Byte} {s : State}

theorem alarmClearOrder_badField (h : b = 0 ∨ 20 < b.toNat) : alarmClearOrder b s = (s, .badField) := by
  have hnone : alarmOfByte b = none := by
    cases hk : alarmOfByte b with
    | none => rfl
    | some k =>
      have hnum := alarmOfByte_some hk
      have := alarmNumber_range k
      rcases h with rfl | h
      · simp at hnum; omega
      · omega
  simp [alarmClearOrder, hnone]

theorem alarmClearOrder_wrongState (hk : alarmNumber k = b.toNat) (hr : (getK k s).raised = false) :
    alarmClearOrder b s = (s, .wrongState) := by
  simp [alarmClearOrder, alarmOfByte_number k hk, hr]

theorem alarmClearOrder_cleared (hk : alarmNumber k = b.toNat) (hr : (getK k s).raised = true) (hw : (getK k s).waiting = []) :
    alarmClearOrder b s = (modK k (fun _ => ⟨false, none, [], 0, .idle⟩) s, .done) := by
  have hclear : modK k clearRecord s = modK k (fun _ => ⟨false, none, [], 0, .idle⟩) s := by
    simp only [modK, clearRecord, hw]
  simp [alarmClearOrder, alarmOfByte_number k hk, hr, hclear]

theorem alarmClearOrder_rotated {v : Serial} {rest : List Serial} (hk : alarmNumber k = b.toNat) (hr : (getK k s).raised = true)
    (hw : (getK k s).waiting = v :: rest) : alarmClearOrder b s
      = (if masked k s then modK k (fun _ => ⟨true, some v, rest, 1, .idle⟩) s
         else offerNotice (.alarm k 1 (some v)) (modK k (fun _ => ⟨true, some v, rest, 1, .idle⟩) s), .done) := by
  have hclear : modK k clearRecord s = modK k (fun _ => ⟨true, some v, rest, 1, .idle⟩) s := by
    simp only [modK, clearRecord, hw, hr]
  have hmask : masked k (modK k (fun _ => ⟨true, some v, rest, 1, .idle⟩) s) = masked k s := masked_congr rfl
  simp only [alarmClearOrder, alarmOfByte_number k hk, hr, if_true, hclear, getK_modK_same, hmask, Bool.true_and]
  cases masked k s <;> rfl

end

/-- Settles O50: the rows of R189 through `receiveOrder`, and the one offer of a due notice. -/
theorem alarmClearRotatesOrClears : Obligations.AlarmClearRotatesOrClears := by
  unfold Obligations.AlarmClearRotatesOrClears
  refine ⟨fun h b s hheld hheeded hphase => ?early, fun h b s hheld hheeded hphase => ?late, fun k s hheld => ⟨fun hdue hroom => ?due, fun hnot => ?notDue⟩⟩
  case early =>
    refine receive_of_heeded (o := .alarmClear b) hheld hheeded ?_
    rw [orderEffect_early hphase rfl]
    rfl
  case late =>
    have key : ∀ {t out}, alarmClearOrder b s = (t, out) → exec (.alarmClear h b) s = .next (answered h 8 out .none t) := fun ho =>
      receive_of_heeded (o := .alarmClear b) hheld hheeded (by rw [orderEffect_late hphase rfl rfl, ownerActs, ho]; rfl)
    exact ⟨fun hb => key (alarmClearOrder_badField hb), fun k hk => ⟨fun hr => key (alarmClearOrder_wrongState hk hr),
      fun hr hw => key (alarmClearOrder_cleared hk hr hw), fun v rest hr hw => key (alarmClearOrder_rotated hk hr hw)⟩⟩
  case due =>
    let v := modK k (fun a => { a with reoffer := a.reoffer.made }) s
    have hK : getK k v = { getK k s with reoffer := (getK k s).reoffer.made } := getK_modK_same _ _ _
    have hisDue := (Reoffer.isDue_iff (getK k s).reoffer).mpr hdue
    have hstep : alarmReofferStep k s = offerNotice (.alarm k (getK k s).count (getK k s).subject) v := by
      rw [alarmReofferStep, if_pos hisDue]
      show offerNotice (.alarm k (getK k v).count (getK k v).subject) v = _
      rw [hK]
    refine ⟨_, (unlessHeld_of_not_held hheld _).trans (by rw [hstep]), ?_, ?_, ?_⟩
    · exact offerNotice_inOutbox alarm_cls_ne_usage hroom.lt
    · exact (offerNotice_reports _ v).ut
    · rw [offerNotice_room (s := v) alarm_cls_ne_usage hroom.lt]
      rw [← Reoffer.made_of_isDue hisDue]
      exact hK
  case notDue =>
    have hstep : alarmReofferStep k s = s := by
      rcases hnot with h | h <;> simp [alarmReofferStep, h, Reoffer.isDue]
    exact (unlessHeld_of_not_held hheld _).trans (by rw [hstep])

/-! ### The district factor (R156) -/

theorem map_ite_sum {α : Type} (p : α → Bool) (f : α → Nat) (l : List α) :
    (l.map (fun a => if p a then f a else 0)).sum = ((l.filter p).map f).sum := by
  induction l with
  | nil => rfl
  | cons a l ih => cases h : p a <;> simp [h, ih]

theorem factorIsCurrent_iff (s : State) :
    FactorIsCurrent s ↔ s.dv.factor = factorOf (inForce s).budget (loadSum s.dv.loads) := by
  simp only [FactorIsCurrent, forall_eq, loadSum, map_ite_sum]
  rfl

theorem recomputeF_current (s : State) : FactorIsCurrent (recomputeF s) := (factorIsCurrent_iff _).mpr rfl

theorem FactorIsCurrent.congr {s t : State} (h : FactorIsCurrent s) (hf : t.dv.factor = s.dv.factor) (hl : t.dv.loads = s.dv.loads)
    (hs : t.sc.settings = s.sc.settings) : FactorIsCurrent t := by
  unfold FactorIsCurrent inForce at *
  rwa [hf, hl, hs]

theorem FactorIsCurrent.reports {s t : State} (h : FactorIsCurrent s) (r : OnlyReports s t) : FactorIsCurrent t :=
  h.congr (by rw [r.dv]) (by rw [r.dv]) (by rw [r.sc])

/-! ### Phases (R191, R192) -/

/-- Settles O51: `endListen` by the settings, and `endEnlist` through its one occurrence. -/
theorem startPhasesEnd : Obligations.StartPhasesEnd := by
  unfold Obligations.StartPhasesEnd
  refine ⟨fun s hheld hphase hcount => ⟨fun hset => ?serving, fun hset => ?enlist⟩, fun s hheld hphase hcount => ?defaults⟩
  case serving =>
    have hstep : listenStep s = { s with sc := { s.sc with listenCount := 0, phase := .serving, ticked := true } } := by
      simp [listenStep, hphase, hcount, endListen, Option.isSome_iff_ne_none.mpr hset, scTaken]
    exact (unlessHeld_of_not_held hheld _).trans (by rw [hstep])
  case enlist =>
    have hstep : listenStep s
        = { s with sc := { s.sc with listenCount := 0, phase := .enlist, enlistCount := 8000, ticked := true } } := by
      simp [listenStep, hphase, hcount, endListen, hset, scTaken]
    exact (unlessHeld_of_not_held hheld _).trans (by rw [hstep])
  case defaults =>
    let l := lockSettings Settings.defaults s
    let v : State := { l with sc := { l.sc with enlistCount := 0, phase := .serving } }
    have hstep : enlistStep s = scTaken (occur .settingsDefaulted none v) := by
      simp [enlistStep, hphase, hcount, endEnlist, l, v]
    have r := occur_reports .settingsDefaulted none v
    have hfactor : FactorIsCurrent v := (recomputeF_current _).congr (s := l) rfl rfl rfl
    refine ⟨scTaken (occur .settingsDefaulted none v), (unlessHeld_of_not_held hheld _).trans (by rw [hstep]), ?_, ?_, rfl, ?_, r.ut,
      ?_, ?_, fun hfirst hroom => ?_⟩
    · show (occur .settingsDefaulted none v).sc.phase = _
      rw [r.sc]
    · show (occur .settingsDefaulted none v).sc.enlistCount = _
      rw [r.sc]
    · exact (hfactor.reports r).congr rfl rfl rfl
    · show (occur .settingsDefaulted none v).sc.settings = _
      rw [r.sc]
      rfl
    · exact ((occurredOnce_occur (by decide)).earlier rfl).later (t := occur .settingsDefaulted none v) rfl
    · have hmask : masked .settingsDefaulted v = false := rfl
      have hoffer : occur .settingsDefaulted none v
          = offerNotice (.alarm .settingsDefaulted 1 none) (latch .settingsDefaulted none v) := by
        have hfirst' : (getK .settingsDefaulted v).raised = false := hfirst
        simp [occur, hfirst', hmask]
      have hin : InOutbox (.alarm .settingsDefaulted 1 none) (occur .settingsDefaulted none v) := by
        rw [hoffer]
        exact offerNotice_inOutbox alarm_cls_ne_usage hroom.lt
      exact hin.congr rfl

/-! ### SETTINGS (R193) -/

theorem settingsOk_iff (f : SettingsFields) : settingsOk f = true ↔
    (0 < f.sources.toNat ∧ f.sources.toNat < 32768 ∧ f.tdark.toNat ≤ 1023 ∧ 1 ≤ f.budget.toNat ∧ f.budget.toNat ≤ 400000
      ∧ 16 ≤ f.interval.toNat ∧ f.interval.toNat ≤ 1024 ∧ 2 ≤ f.litCount.toNat ∧ f.litCount.toNat ≤ 8 ∧ f.mask.toNat < 8) := by
  simp only [settingsOk, Bool.and_eq_true, decide_eq_true_eq, and_assoc]

/-- The kind reaches its owner in every phase (R179). -/
theorem orderEffect_settings (f : SettingsFields) (s : State) : orderEffect (.settings f) s = plainData (settingsOrder f s) := by
  cases hp : s.sc.phase <;> simp [orderEffect, isMalformed, hp, beforeServing, whileRestarting, ownerActs]

theorem settingsOrder_locked {f : SettingsFields} {s : State} (h : s.sc.settings ≠ none) : settingsOrder f s = (s, .locked) := by
  simp [settingsOrder, Option.isSome_iff_ne_none.mpr h]

theorem settingsOrder_badField {f : SettingsFields} {s : State} (h : s.sc.settings = none) (hf : ¬settingsOk f = true) :
    settingsOrder f s = (s, .badField) := by
  simp [settingsOrder, h, hf]

theorem settingsOrder_done {f : SettingsFields} {s : State} (h : s.sc.settings = none) (hf : settingsOk f = true) :
    settingsOrder f s = (serveFromEnlist (lockSettings (settingsOf f) s), .done) := by
  simp [settingsOrder, h, hf]

theorem serveFromEnlist_of_enlist {s : State} (h : s.sc.phase = .enlist) :
    serveFromEnlist s = { s with sc := { s.sc with phase := .serving, enlistCount := 0 } } := if_pos h

theorem serveFromEnlist_of_not_enlist {s : State} (h : s.sc.phase ≠ .enlist) : serveFromEnlist s = s := if_neg h

/-- Settles O52: the three rows of `settingsOrder`, the last by the phase. -/
theorem settingsAreTakenOnce : Obligations.SettingsAreTakenOnce := by
  unfold Obligations.SettingsAreTakenOnce
  intro h f s hheld hheeded ok
  have hok : settingsOk f = true ↔ ok := settingsOk_iff f
  have key : ∀ {t out}, settingsOrder f s = (t, out) → exec (.settings h f) s = .next (answered h 1 out .none t) := fun ho =>
    receive_of_heeded (o := .settings f) hheld hheeded (by rw [orderEffect_settings, ho]; rfl)
  refine ⟨fun hset => key (settingsOrder_locked hset), fun hset hf => key (settingsOrder_badField hset (mt hok.mp hf)),
    fun hset hf => ⟨_, key (settingsOrder_done hset (hok.mpr hf)), ?_⟩⟩
  let v := lockSettings (settingsOf f) s
  have hcurrent : FactorIsCurrent v := recomputeF_current _
  by_cases hphase : s.sc.phase = .enlist
  · rw [serveFromEnlist_of_enlist (s := v) hphase]
    exact ⟨rfl, hcurrent.congr rfl rfl rfl, rfl, fun _ => ⟨rfl, rfl⟩, fun hne => absurd hphase hne⟩
  · rw [serveFromEnlist_of_not_enlist (s := v) hphase]
    exact ⟨rfl, hcurrent, rfl, fun h => absurd h hphase, fun _ => ⟨rfl, rfl⟩⟩

/-! ### The end of a restart, and the presence notice (R195, R191) -/

/-- Settles O54: `restartEndStep` by its latched test, and the one offer of a due presence notice. -/
theorem restartEndAndPresenceReoffer : Obligations.RestartEndAndPresenceReoffer := by
  unfold Obligations.RestartEndAndPresenceReoffer
  refine ⟨fun s hheld => ⟨fun hnot => ?going, fun hends => ?ended⟩, fun s hheld => ⟨fun hnot => ?notDue, fun hdue => ?due⟩⟩
  case going =>
    have hstep : restartEndStep s = s := by simp [restartEndStep, hnot]
    exact (unlessHeld_of_not_held hheld _).trans (by rw [hstep])
  case ended =>
    refine ⟨_, (unlessHeld_of_not_held hheld _).trans (congrArg _ (if_pos hends)), rfl, rfl, rfl, rfl, fun u => ?_⟩
    exact getU_mapU _ _ _
  case notDue =>
    have hstep : presenceReofferStep s = s := by
      rcases hnot with h | h <;> simp [presenceReofferStep, h, Reoffer.isDue]
    exact (unlessHeld_of_not_held hheld _).trans (by rw [hstep])
  case due =>
    have hisDue := (Reoffer.isDue_iff s.sc.presence).mpr hdue
    have hmade := Reoffer.made_of_isDue hisDue
    let v : State := { s with sc := { s.sc with presence := if s.sc.presence = .due then .idle else .waiting } }
    have hstep : presenceReofferStep s
        = if s.sc.phase = .listen ∨ s.sc.phase = .enlist then offerNotice (.presence s.sc.cause s.sc.reach) v else v := by
      simp only [presenceReofferStep, hisDue, if_true, hmade]
      rfl
    have hcls : (NoticeBody.presence s.sc.cause s.sc.reach).cls ≠ 6 := by simp [NoticeBody.cls]
    refine ⟨_, (unlessHeld_of_not_held hheld _).trans (by rw [hstep]), ?_, fun hphase hroom => ?_, fun hphase => ?_⟩
    · split
      · exact (offerNotice_reports _ v).ut
      · rfl
    · rw [if_pos hphase]
      refine ⟨offerNotice_inOutbox (s := v) hcls hroom.lt, ?_⟩
      rw [offerNotice_room (s := v) hcls hroom.lt]
    · rw [if_neg (by rcases hphase with h | h <;> simp [h])]

end Sys2Proof.Machine

/-!
PROOFS. What later operations leave of a record that has left service, and RESTART, which ends the service of every record (O53).
-/
namespace Sys2Proof.Machine

-- One proof after another, as in the tests: side by side, the proofs of one text hold more stacks than the check's memory has room for.
set_option Elab.async false

/-! ### What later operations leave of one unit -/

/-- From `s` to `t` nothing has happened to unit `u`: its record and billing stand, no order of the EC for it has joined the queue and
no DROP_UNIT for it has left, it has not come back into the ranging queue or the search. -/
structure Spares (u : UnitNo) (s t : State) : Prop where
  record    : getU u t = getU u s
  live      : (getA u t).live = (getA u s).live
  takeNo    : (getA u t).takeNo = (getA u s).takeNo
  snapshot  : (getA u t).snapshot.map Snapshot.contents = (getA u s).snapshot.map Snapshot.contents
  onLine    : (getA u t).snapshot.any (fun p => p.notice == .onLine) = (getA u s).snapshot.any (fun p => p.notice == .onLine)
  attempt   : (getE u t).attemptPending = (getE u s).attemptPending
  ranging   : u ∈ t.ec.rangingQueue → u ∈ s.ec.rangingQueue
  dropKept  : ∀ q ∈ s.tli.queue, q.order = .dropUnit u → q ∈ t.tli.queue
  joined    : ∀ q ∈ t.tli.queue, q.producer = .ec → q ∈ s.tli.queue ∨ (isAssignFor u q.order = false ∧ isEqdFor u q.order = false)
  search    : OutOfSearch u s → OutOfSearch u t
  saturated : (getK .counterSaturated s).raised = true → (getK .counterSaturated t).raised = true

section
variable {u v : UnitNo} {s t w : State}

theorem Spares.trans (h : Spares u s t) (k : Spares u t w) : Spares u s w where
  record := k.record.trans h.record
  live := k.live.trans h.live
  takeNo := k.takeNo.trans h.takeNo
  snapshot := k.snapshot.trans h.snapshot
  onLine := k.onLine.trans h.onLine
  attempt := k.attempt.trans h.attempt
  ranging := h.ranging ∘ k.ranging
  dropKept q hq ho := k.dropKept q (h.dropKept q hq ho) ho
  joined q hq hp := (k.joined q hq hp).elim (fun hq => h.joined q hq hp) .inr
  search := k.search ∘ h.search
  saturated := k.saturated ∘ h.saturated

/-- Changes that a unit does not see. -/
theorem Spares.of_same (hrecord : getU u t = getU u s := by rfl) (haccount : getA u t = getA u s := by rfl)
    (hattempt : (getE u t).attemptPending = (getE u s).attemptPending := by rfl)
    (hranging : u ∈ t.ec.rangingQueue → u ∈ s.ec.rangingQueue := by exact id) (hqueue : t.tli.queue = s.tli.queue := by rfl)
    (hsearch : t.lm.iso = s.lm.iso := by rfl) (halarms : t.alarms = s.alarms := by rfl) : Spares u s t where
  record := hrecord
  live := by rw [haccount]
  takeNo := by rw [haccount]
  snapshot := by rw [haccount]
  onLine := by rw [haccount]
  attempt := hattempt
  ranging := hranging
  dropKept _ hq _ := hqueue ▸ hq
  joined _ hq _ := .inl (hqueue ▸ hq)
  search h := h.congr hsearch
  saturated h := by rwa [getK_congr halarms]

theorem Spares.refl : Spares u s s := .of_same

theorem OnlyReports.spares (r : OnlyReports s t)
    (hk : (getK .counterSaturated s).raised = true → (getK .counterSaturated t).raised = true) : Spares u s t where
  record := r.getU u
  live := r.live u
  takeNo := r.takeNo u
  snapshot := r.snapshot u
  onLine := r.onLine u
  attempt := by rw [r.getE]
  ranging h := by rwa [r.ec] at h
  dropKept _ hq _ := by rwa [r.tli]
  joined _ hq _ := .inl (by rwa [r.tli] at hq)
  search h := h.congr (by rw [r.lm])
  saturated := hk

theorem offerNotice_spares {b : NoticeBody} : Spares u s (offerNotice b s) :=
  (offerNotice_reports b s).spares (offerNotice_raised b)

theorem pace_spares : Spares u s (pace s) := (pace_reports s).spares pace_raised

theorem occur_spares {k : AlarmKind} {x : Option Serial} : Spares u s (occur k x s) :=
  (occur_reports k x s).spares fun h => by
    by_cases hk : k = .counterSaturated
    · subst hk; exact occur_raised _ _ _
    · rwa [getK_occur_other (by decide) hk]

theorem saturation_spares {a b : Bool} : Spares u s (saturation v a b s) := by
  unfold saturation
  split
  · exact occur_spares
  · exact .refl

theorem modA_spares {f : Account → Account} (huv : v ≠ u) : Spares u s (modA v f s) :=
  .of_same (haccount := by rw [getA_modA, if_neg huv])

theorem modU_spares {f : UnitRecord → UnitRecord} (huv : v ≠ u) : Spares u s (modU v f s) :=
  .of_same (hrecord := by rw [getU_modU, if_neg huv])

/-! A record that has left service stays so while it is spared. -/

theorem Spares.sameService (h : Spares u s t) : SameService u s t :=
  ⟨by rw [h.record], by rw [h.record], by rw [h.record], h.live, h.takeNo, h.snapshot, h.onLine⟩

/-- The snapshot as it stands later. -/
theorem Spares.find (h : Spares u s t) {p : Snapshot} (hp : (getA u s).snapshot = some p) :
    ∃ q, (getA u t).snapshot = some q ∧ q.contents = p.contents ∧ (q.notice = .onLine ↔ p.notice = .onLine) :=
  h.sameService.find hp

theorem MovedFinal.spared (h : MovedFinal u s t) (k : Spares u t w) : MovedFinal u s w := by
  obtain ⟨hlive, hno, q, hq, hcounters, htake, hfinal, hdisputed, hclose⟩ := h
  obtain ⟨p, hp, hc, -⟩ := k.find hq
  simp only [Snapshot.contents, Snapshot.mk.injEq] at hc
  obtain ⟨c1, c2, c3, c4, -, c5⟩ := hc
  exact ⟨k.live.trans hlive, k.takeNo.trans hno, p, hp, c1.trans hcounters, (c2.trans htake).trans k.takeNo.symm, c3.trans hfinal,
    c4.trans hdisputed, c5.trans hclose⟩

theorem MergedFinal.spared {p : Snapshot} (h : MergedFinal u p s t) (k : Spares u t w) : MergedFinal u p s w := by
  obtain ⟨hlive, hno, q, hq, hmerged, htake, hfinal, hdisputed, hclose, hsat⟩ := h
  obtain ⟨r, hr, hc, -⟩ := k.find hq
  simp only [Snapshot.contents, Snapshot.mk.injEq] at hc
  obtain ⟨c1, c2, c3, c4, -, c5⟩ := hc
  exact ⟨k.live.trans hlive, k.takeNo.trans hno, r, hr, by rwa [c1], c2.trans htake, c3.trans hfinal, c4.trans hdisputed,
    c5.trans hclose, fun hp hr => k.saturated (hsat hp (by rwa [← c1]))⟩

theorem BillingClosed.spared (h : BillingClosed u s t) (k : Spares u t w) : BillingClosed u s w := by
  obtain ⟨hmoved, hmerged, hpending⟩ := h
  refine ⟨fun hnone => (hmoved hnone).spared k, fun p hp hn => (hmerged p hp hn).spared k, fun p hp hn => ?_⟩
  obtain ⟨hlive, hno, hsnap⟩ := hpending p hp hn
  obtain ⟨q, hq, hc, hl⟩ := k.find hsnap
  refine ⟨k.live.trans hlive, k.takeNo.trans hno, hq.trans (congrArg some ?_)⟩
  exact Snapshot.eq_of_contents hc ((hl.mpr hn).trans hn.symm)

theorem LeftService.spared (h : LeftService u s t) (k : Spares u t w) : LeftService u s w := by
  obtain ⟨hstate, hserial, heqd, hprov, hhold, hrefresh, hpoll, hqueue, horders, hsearch, hbilling⟩ := h
  unfold LeftService
  rw [k.record]
  exact ⟨hstate, hserial, heqd, hprov, hhold, hrefresh, hpoll, fun hu => hqueue (k.ranging hu),
    fun q hq hp => (k.joined q hq hp).elim (fun hq => horders q hq hp) id, k.search hsearch, hbilling.spared k⟩

theorem Spares.blank (k : Spares u t w) (h : getA u t = Account.blank) : getA u w = Account.blank :=
  account_eq_blank (by rw [k.live, h]; rfl) (by rw [k.takeNo, h]; rfl) (by rw [k.snapshot, h]; rfl)

theorem FreedDirectly.spared (h : FreedDirectly u s t) (k : Spares u t w) : FreedDirectly u s w := by
  obtain ⟨hrecord, hdrop, haccount, hqueue, hattempt, hranging, hother⟩ := h
  unfold FreedDirectly
  rw [k.record]
  refine ⟨hrecord, hdrop, k.blank haccount, fun hu => hqueue (k.ranging hu), k.attempt.trans hattempt, fun hs => ?_, hother⟩
  obtain ⟨hsearch, horders, hdrops⟩ := hranging hs
  exact ⟨k.search hsearch, fun q hq hp => (k.joined q hq hp).elim (fun hq => horders q hq hp) (·.1),
    hdrops.imp_left fun ⟨hidle, hmem⟩ => ⟨hidle, k.dropKept _ hmem rfl⟩⟩

end

/-! ### The end of a service leaves the other records alone, while no search goes on -/

section
variable {u v : UnitNo} {s t : State}

theorem isoRemove_of_watch (h : s.lm.iso.phase = .watch) : isoRemove u s = s := by
  unfold isoRemove
  rw [h]

theorem closeBilling_spares (huv : v ≠ u) : Spares u s (closeBilling v s) := by
  unfold closeBilling
  split
  · exact (modA_spares huv).trans pace_spares
  · split
    · exact modA_spares huv
    · exact ((modA_spares huv).trans saturation_spares).trans pace_spares

theorem leaveRangingQueue_spares (huv : v ≠ u) : Spares u s (leaveRangingQueue v s) :=
  .of_same (hattempt := by rw [getE_leaveRangingQueue, if_neg huv]) (hranging := fun h => (List.mem_filter.mp h).1)

/-- Orders that are withdrawn are no DROP_UNIT. -/
theorem withdrawOrders_spares {p : Producer} {which : PuOrder → Bool} (hw : which (.dropUnit u) = false) :
    Spares u s (withdrawOrders p which s).1 where
  record := rfl
  live := rfl
  takeNo := rfl
  snapshot := rfl
  onLine := rfl
  attempt := rfl
  ranging := id
  dropKept q hq ho := List.mem_filter.mpr ⟨hq, by simp [withdrawn, ho, hw]⟩
  joined q hq _ := .inl (List.mem_filter.mp hq).1
  search h := h.congr rfl
  saturated := id

theorem offerDrop_spares {p : Producer} (huv : v ≠ u) : Spares u s (offerDrop p v s) := by
  obtain ⟨w, q, hdrop, hq⟩ := offerDrop_writes p v s
  rw [hdrop]
  refine Spares.trans (t := s.withQueue q) ?_ (modU_spares huv)
  rcases hq with ⟨-, rfl, -⟩ | ⟨-, rfl, -⟩
  · exact {
      record := rfl, live := rfl, takeNo := rfl, snapshot := rfl, onLine := rfl, attempt := rfl, ranging := id
      dropKept := fun q hq _ => mem_enqueue.mpr (.inr hq)
      joined := fun q hq _ => (mem_enqueue.mp hq).elim (fun h => .inr (by rw [h]; exact ⟨rfl, rfl⟩)) .inl
      search := fun h => h.congr rfl
      saturated := id }
  · exact .of_same

theorem leftTree_spares (huv : v ≠ u) : Spares u s (leftTree v s) :=
  ((modU_spares huv).trans (leaveRangingQueue_spares huv)).trans (withdrawOrders_spares rfl)

theorem retire_spares (huv : v ≠ u) (hw : s.lm.iso.phase = .watch) : Spares u s (retire v s) := by
  have hleft : (leftTree v s).lm.iso.phase = .watch := hw
  rw [retire_eq, isoRemove_of_watch hleft]
  exact (leftTree_spares huv).trans (closeBilling_spares huv)

theorem freedDirect_spares (huv : v ≠ u) : Spares u s (freedDirect v s) :=
  .of_same (hrecord := by rw [freedDirect, getU_setU, if_neg huv]; rfl)
    (haccount := (vector_get_set _ _ _ _).trans (if_neg huv))
    (hattempt := by
      show (getE u (modE v freedEc (leaveRangingQueue v s))).attemptPending = _
      rw [getE_modE, if_neg huv, getE_leaveRangingQueue, if_neg huv])
    (hranging := fun h => (List.mem_filter.mp h).1)

theorem directFree_spares (huv : v ≠ u) (hw : s.lm.iso.phase = .watch) : Spares u s (directFree v s) := by
  have hsilent : Spares u s (freedSilently v s) := by
    unfold freedSilently
    split
    · have hwithdrawn : Spares u s (withdrawOrders .ec (isAssignFor v) (freedDirect v s)).1 :=
        (freedDirect_spares huv).trans (withdrawOrders_spares rfl)
      obtain ⟨w, q, hdrop, -⟩ := offerDrop_writes .ec v (withdrawOrders .ec (isAssignFor v) (freedDirect v s)).1
      have hphase : (offerDrop .ec v (withdrawOrders .ec (isAssignFor v) (freedDirect v s)).1).lm.iso.phase = .watch := by
        rw [hdrop]
        exact hw
      rw [isoRemove_of_watch hphase]
      exact hwithdrawn.trans (offerDrop_spares huv)
    · exact freedDirect_spares huv
  cases hx : (getU v s).serial with
  | none => rwa [directFree_of_nameless hx]
  | some x => rw [directFree_of_serial hx]; exact hsilent.trans offerNotice_spares

theorem endService_spares (huv : v ≠ u) (hw : s.lm.iso.phase = .watch) : Spares u s (endService v s) := by
  unfold endService
  split
  · exact retire_spares huv hw
  split
  · exact directFree_spares huv hw
  · exact .refl

end

/-! ### What the end of a service leaves of the rest of the part, while no search goes on -/

/-- The phase, the settings, the search, the permits, the district's view, the plans and the counts stand as they did. -/
structure KeepsView (s t : State) : Prop where
  phase    : t.sc.phase = s.sc.phase
  settings : t.sc.settings = s.sc.settings
  tli      : t.tli = { s.tli with queue := t.tli.queue }
  permits  : t.ec.permits = s.ec.permits
  gs       : t.gs = s.gs
  bm       : t.bm = s.bm
  iso      : t.lm.iso = s.lm.iso
  band     : t.ucb.band = s.ucb.band
  dv       : t.dv = { s.dv with lostBars := t.dv.lostBars }

section
variable {u : UnitNo} {s t v : State}

theorem KeepsView.trans (h : KeepsView s t) (k : KeepsView t v) : KeepsView s v where
  phase := k.phase.trans h.phase
  settings := k.settings.trans h.settings
  tli := by rw [k.tli, h.tli]
  permits := k.permits.trans h.permits
  gs := k.gs.trans h.gs
  bm := k.bm.trans h.bm
  iso := k.iso.trans h.iso
  band := k.band.trans h.band
  dv := by rw [k.dv, h.dv]

theorem KeepsView.refl (s : State) : KeepsView s s := ⟨rfl, rfl, rfl, rfl, rfl, rfl, rfl, rfl, rfl⟩

theorem OnlyReports.keepsView (r : OnlyReports s t) : KeepsView s t :=
  ⟨by rw [r.sc], by rw [r.sc], by rw [r.tli], by rw [r.ec], r.gs, r.bm, by rw [r.lm], r.band, r.dv⟩

theorem closeBilling_keepsView (u : UnitNo) (s : State) : KeepsView s (closeBilling u s) := by
  have hmod : ∀ f, KeepsView s (modA u f s) := fun f => ⟨rfl, rfl, rfl, rfl, rfl, rfl, rfl, rfl, rfl⟩
  unfold closeBilling
  split
  · exact (hmod _).trans (pace_reports _).keepsView
  · split
    · exact hmod _
    · exact ((hmod _).trans (saturation_reports _ _ _ _).keepsView).trans (pace_reports _).keepsView

theorem retire_keepsView (hw : s.lm.iso.phase = .watch) : KeepsView s (retire u s) := by
  have hleft : (leftTree u s).lm.iso.phase = .watch := hw
  rw [retire_eq, isoRemove_of_watch hleft]
  exact KeepsView.trans (t := leftTree u s) ⟨rfl, rfl, rfl, rfl, rfl, rfl, rfl, rfl, rfl⟩ (closeBilling_keepsView u _)

theorem directFree_keepsView (hw : s.lm.iso.phase = .watch) : KeepsView s (directFree u s) := by
  refine KeepsView.trans ?_ (directFree_reports u s).keepsView
  unfold freedSilently
  split
  · obtain ⟨w, q, hdrop, -⟩ := offerDrop_writes .ec u (withdrawOrders .ec (isAssignFor u) (freedDirect u s)).1
    have hwithdrawn : KeepsView s (withdrawOrders .ec (isAssignFor u) (freedDirect u s)).1 :=
      ⟨rfl, rfl, rfl, rfl, rfl, rfl, rfl, rfl, rfl⟩
    generalize (withdrawOrders .ec (isAssignFor u) (freedDirect u s)).1 = v at hdrop hwithdrawn
    have hoffer : KeepsView v (offerDrop .ec u v) := by
      rw [hdrop]
      exact ⟨rfl, rfl, rfl, rfl, rfl, rfl, rfl, rfl, rfl⟩
    have h := hwithdrawn.trans hoffer
    rwa [isoRemove_of_watch (by rw [h.iso]; exact hw)]
  · exact ⟨rfl, rfl, rfl, rfl, rfl, rfl, rfl, rfl, rfl⟩

theorem endService_keepsView (hw : s.lm.iso.phase = .watch) : KeepsView s (endService u s) := by
  unfold endService
  split
  · exact retire_keepsView hw
  split
  · exact directFree_keepsView hw
  · exact .refl s

theorem foldl_endService_keepsView (l : List UnitNo) (hw : s.lm.iso.phase = .watch) :
    KeepsView s (l.foldl (fun t u => endService u t) s) := by
  induction l generalizing s with
  | nil => exact .refl s
  | cons u l ih =>
    have h : KeepsView s (endService u s) := endService_keepsView hw
    exact h.trans (ih (by rw [h.iso]; exact hw))

theorem foldl_endService_spares {l : List UnitNo} (hl : u ∉ l) (hw : s.lm.iso.phase = .watch) :
    Spares u s (l.foldl (fun t u => endService u t) s) := by
  induction l generalizing s with
  | nil => exact .refl
  | cons v l ih =>
    obtain ⟨huv, hl⟩ := List.ne_and_not_mem_of_not_mem_cons hl
    have h : KeepsView s (endService v s) := endService_keepsView hw
    exact (endService_spares (Ne.symm huv) hw).trans (ih hl (by rw [h.iso]; exact hw))

/-- The turn of one unit in a visit of all: what comes before and what comes after spares it. -/
theorem foldl_endService_turn (u : UnitNo) (hw : s.lm.iso.phase = .watch) :
    ∃ a, Spares u s a ∧ Spares u (endService u a) (allUnits.foldl (fun t u => endService u t) s) := by
  obtain ⟨pre, post, hsplit⟩ := List.append_of_mem (mem_allUnits u)
  have hnodup := allUnits_nodup
  rw [hsplit] at hnodup ⊢
  obtain ⟨-, hpost, hdisj⟩ := List.nodup_append.mp hnodup
  have hpre : u ∉ pre := fun h => hdisj u h u List.mem_cons_self rfl
  have hbefore : KeepsView s (pre.foldl (fun t u => endService u t) s) := foldl_endService_keepsView pre hw
  have hw' : (pre.foldl (fun t u => endService u t) s).lm.iso.phase = .watch := by rw [hbefore.iso]; exact hw
  have hthen : KeepsView _ (endService u (pre.foldl (fun t u => endService u t) s)) := endService_keepsView hw'
  refine ⟨_, foldl_endService_spares hpre hw, ?_⟩
  rw [List.foldl_append, List.foldl_cons]
  exact foldl_endService_spares (List.nodup_cons.mp hpost).1 (by rw [hthen.iso]; exact hw')

end

/-! ### RESTART (R194) -/

theorem restartOrder_done {s : State} (h : s.sc.phase = .serving) : restartOrder s = (beginRestart s, .done) := if_pos h

theorem restartOrder_busy {s : State} (h : s.sc.phase ≠ .serving) : restartOrder s = (s, .busy) := if_neg h

/-- In every phase but SERVING the order is BUSY, whether its owner or step 3 of R179 says so. -/
theorem orderEffect_restart_busy {s : State} (h : s.sc.phase ≠ .serving) : orderEffect .restart s = (s, .busy, .none) := by
  cases hp : s.sc.phase
  case serving => exact absurd hp h
  case restarting => exact orderEffect_restarting hp rfl
  all_goals
    rw [orderEffect_early (by simp [hp]) rfl, if_pos (by rfl), ownerActs, restartOrder_busy h]
    rfl

/-- The state at which a restart begins to end the services: no search, no hush (R133). -/
def restartCleared (s : State) : State := abortSearch { s with sc := { s.sc with phase := .restarting, restartEnds := false } }

theorem getU_restartCleared (u : UnitNo) (s : State) : getU u (restartCleared s) = { getU u s with hush := false } :=
  getU_mapU _ _ _

theorem restartCleared_sameService (u : UnitNo) (s : State) : SameService u s (restartCleared s) := by
  have h := getU_restartCleared u s
  exact sameService_of_account rfl (by rw [h]) (by rw [h]) (by rw [h])

theorem endService_of_other {u : UnitNo} {s : State} (h : (getU u s).state = .retiring ∨ (getU u s).state = .free) :
    endService u s = s := by
  rcases h with h | h <;> simp [endService, inService, serves, neverServed, h]

/-- Settles O53: each unit's own turn in the visit, which the others' turns spare. -/
theorem restartClosesEveryUnit : Obligations.RestartClosesEveryUnit := by
  unfold Obligations.RestartClosesEveryUnit
  intro h s hheld hheeded
  refine ⟨fun hphase => receive_of_heeded (o := .restart) hheld hheeded (orderEffect_restart_busy hphase),
    fun hphase => ⟨beginRestart s, receive_of_heeded (o := .restart) hheld hheeded
      (by simp only [orderEffect_serving hphase, ownerActs, restartOrder_done hphase, plainData]), ?_⟩⟩
  have hw : (restartCleared s).lm.iso.phase = .watch := rfl
  have view : KeepsView (restartCleared s) (beginRestart s) := foldl_endService_keepsView allUnits hw
  have hiso : (beginRestart s).lm.iso = Isolation.atReset := view.iso
  refine ⟨view.phase, view.settings, by rw [hiso]; rfl, by rw [hiso]; rfl, by rw [hiso]; rfl, by rw [hiso]; rfl, fun u => ?_,
    view.permits, by rw [view.dv]; rfl, by rw [view.dv]; rfl, by rw [view.dv]; rfl, by rw [view.dv]; rfl, view.band, view.gs,
    by rw [view.tli]; rfl, by rw [view.tli]; rfl, view.bm⟩
  obtain ⟨a, hbefore, hafter⟩ := foldl_endService_turn (s := restartCleared s) u hw
  have hafter : Spares u (endService u a) (beginRestart s) := hafter
  have hUa : getU u a = { getU u s with hush := false } := hbefore.record.trans (getU_restartCleared u s)
  have hsame : SameService u s a := (restartCleared_sameService u s).trans hbefore.sameService
  have hin : inService (getU u a) = inService (getU u s) := by rw [hUa]; rfl
  have hnever : neverServed (getU u a) = neverServed (getU u s) := by rw [hUa]; rfl
  have hretired : inService (getU u s) = true → LeftService u s (beginRestart s) := fun hserves => by
    rw [endService_of_inService (hin.trans hserves)] at hafter
    exact ((leftService_retire u a).spared hafter).of_same hsame
  have hfreed : neverServed (getU u s) = true → FreedDirectly u s (beginRestart s) := fun hserves => by
    rw [endService_of_neverServed (hnever.trans hserves)] at hafter
    exact ((freedDirectly_directFree u a).spared hafter).of_state (by rw [hUa])
  have hkept : (getU u s).state = .retiring ∨ (getU u s).state = .free →
      getU u (beginRestart s) = { getU u s with hush := false } := fun hstate => by
    rw [endService_of_other (by rwa [hUa])] at hafter
    exact hafter.record.trans hUa
  refine ⟨?_, hretired, hfreed, hkept⟩
  by_cases hi : inService (getU u s) = true
  · rw [endService_of_inService (hin.trans hi)] at hafter
    rw [hafter.record, getU_retire, if_pos rfl, hUa]
    rfl
  by_cases hn : neverServed (getU u s) = true
  · obtain ⟨hblank, -⟩ := hfreed hn
    rw [hblank]
    rfl
  · have hend : endService u a = a := by rw [endService, if_neg (by rwa [hin]), if_neg (by rwa [hnever])]
    rw [hend] at hafter
    rw [hafter.record, hUa]

end Sys2Proof.Machine

/-!
PROOFS. The District View: loads (O37), peers' claims (O38, O39), bars (O41) and presence notices (O42).
-/
namespace Sys2Proof.Machine

-- One proof after another, as in the tests: side by side, the proofs of one text hold more stacks than the check's memory has room for.
set_option Elab.async false

/-! ### Loads (R153 to R156, R90) -/

section
variable {h : NoticeHead} {b : LoadBody} {s : State} {k : TreeStation}

theorem loadStep_of_peer (hp : PeerNotice h k s) :
    loadStep h b s = recomputeF (setLoad k { load := min 12484 b.load.toNat, age := 0, present := true } s) := by
  simp [loadStep, peerOf_of_peerNotice hp]

theorem loadStep_of_not_peer (hp : peerOf h s = none) : loadStep h b s = s := by
  simp [loadStep, hp]

/-- An entry of the load table ages, or goes (R154). -/
theorem ageLoad_eq (e : LoadEntry) :
    ageLoad e = if e.present = true then (if e.age < 3 then { e with age := e.age + 1 } else ⟨0, 0, false⟩) else e := by
  unfold ageLoad absentLoad
  by_cases h : 3 ≤ e.age
  · simp [h, Nat.not_lt.mpr h]
  · simp [h, Nat.not_le.mp h]

/-- The table after a close: the own entry is set, the peers' have aged (R154). -/
theorem closeLoads_get (load : Nat) (s : State) (k : TreeStation) : (closeLoads load s).dv.loads.get k
    = if k = s.sc.station then { load := load, age := 0, present := true } else ageLoad (s.dv.loads.get k) := by
  show (Vector.set (vmap ageLoad s.dv.loads) s.sc.station { load := load, age := 0, present := true }).get k = _
  rw [vector_get_set, vmap_get]
  simp only [eq_comm]

theorem loadAgeOutStep_of_due (hclose : s.gs.intervalCount = 64) (hk : k ≠ s.sc.station) (hp : (s.dv.loads.get k).present = true)
    (ha : 3 ≤ (s.dv.loads.get k).age) : loadAgeOutStep k s = recomputeF (setLoad k absentLoad s) := by
  simp [loadAgeOutStep, hclose, hk, hp, ha]

end

/-- Settles O37: each of the three commands ends in `recomputeF`. -/
theorem loadsSetTheDistrictFactor : Obligations.LoadsSetTheDistrictFactor := by
  unfold Obligations.LoadsSetTheDistrictFactor
  refine ⟨fun h b k s hheld hp => ?peer, fun h b s hheld hp => ?other, fun s hheld hclose => ?close,
    fun k s hheld hclose hk hpresent hage => ?ageOut⟩
  case peer => exact ⟨_, (unlessHeld_of_not_held hheld _).trans (by rw [loadStep_of_peer hp]), recomputeF_current _, rfl⟩
  case other =>
    have hnone : peerOf h s = none := hp.elim peerOf_of_controller peerOf_of_self
    exact (unlessHeld_of_not_held hheld _).trans (by rw [loadStep_of_not_peer hnone])
  case close =>
    let load := s.gs.intervalSum / 64
    let v := closeLoads load { s with gs := { s.gs with intervalSum := 0, intervalCount := 0 } }
    have hstep : intervalStep s = offerNotice (.load (loadFields load v)) v := by
      rw [intervalStep, if_pos hclose]
    have hget : ∀ k, v.dv.loads.get k = if k = s.sc.station then { load := load, age := 0, present := true }
        else ageLoad (s.dv.loads.get k) := closeLoads_get load { s with gs := { s.gs with intervalSum := 0, intervalCount := 0 } }
    have r := offerNotice_reports (.load (loadFields load v)) v
    have hloads : (offerNotice (.load (loadFields load v)) v).dv.loads = v.dv.loads := by rw [r.dv]
    refine ⟨_, (unlessHeld_of_not_held hheld _).trans (by rw [hstep]), (recomputeF_current _).reports r, ?_, fun k hk => ?_, r.gs, r.ut,
      fun hroom => ?_⟩
    · rw [hloads, hget, if_pos rfl]
    · rw [hloads, hget, if_neg hk, ageLoad_eq]
    · exact offerNotice_inOutbox (b := .load (loadFields load v)) (by simp [NoticeBody.cls]) hroom.lt
  case ageOut =>
    exact ⟨_, (unlessHeld_of_not_held hheld _).trans (by rw [loadAgeOutStep_of_due hclose hk hpresent hage]), recomputeF_current _, rfl⟩

/-! ### Storing a claim (R157, R158) -/

section
variable {x : Serial} {t : TreeStation} {level : Nat} {k : StoredClaim} {s : State}

theorem any_hasKey_iff : s.dv.claims.any (hasKey x t) = true ↔ ∃ e ∈ s.dv.claims, e.serial = x ∧ e.peer = t := by
  simp [hasKey_iff]

theorem storeClaim_again (h : ∃ e ∈ s.dv.claims, e.serial = x ∧ e.peer = t) : storeClaim x t level k s
    = { s with dv := { s.dv with claims := s.dv.claims.filter (fun e => ¬(e.serial = x ∧ e.peer = t)) ++ [⟨x, t, level, k, 0⟩] } } := by
  have hfilter : s.dv.claims.filter (fun c => !hasKey x t c) = s.dv.claims.filter (fun e => ¬(e.serial = x ∧ e.peer = t)) :=
    List.filter_congr fun e _ => by rw [Bool.eq_iff_iff]; simp [← hasKey_iff]
  rw [storeClaim, if_pos (any_hasKey_iff.mpr h), hfilter]

theorem storeClaim_free (h : ∀ e ∈ s.dv.claims, ¬(e.serial = x ∧ e.peer = t)) (hlen : s.dv.claims.length < 32) :
    storeClaim x t level k s = { s with dv := { s.dv with claims := s.dv.claims ++ [⟨x, t, level, k, 0⟩] } } := by
  rw [storeClaim, if_neg (fun hany => by obtain ⟨e, he, hkey⟩ := any_hasKey_iff.mp hany; exact h e he hkey), if_pos hlen]

theorem storeClaim_full (h : ∀ e ∈ s.dv.claims, ¬(e.serial = x ∧ e.peer = t)) (hlen : s.dv.claims.length = 32) :
    storeClaim x t level k s = { s with dv := { s.dv with
      claims := makeRoom s.dv.claims ++ [⟨x, t, level, k, 0⟩], claimsOverflow := satAdd 65535 s.dv.claimsOverflow 1 } } := by
  rw [storeClaim, if_neg (fun hany => by obtain ⟨e, he, hkey⟩ := any_hasKey_iff.mp hany; exact h e he hkey), if_neg (by omega)]

theorem storeClaim_frame : storeClaim x t level k s = { s with dv := (storeClaim x t level k s).dv } := by
  unfold storeClaim
  simp only
  split
  · rfl
  · split <;> rfl

/-- What a full list gives up: its first claiming entry, or else its first (R158). -/
theorem makeRoom_split {l : List ClaimEntry} (hl : l ≠ []) : ∃ a e b, l = a ++ e :: b ∧ makeRoom l = a ++ b
    ∧ (e.kind = .claiming ∧ (∀ y ∈ a, y.kind = .held) ∨ a = [] ∧ ∀ y ∈ l, y.kind = .held) := by
  have hheld : ∀ y : ClaimEntry, (y.kind == .claiming) = false → y.kind = .held := fun y hy => by
    cases hk : y.kind with
    | claiming => rw [hk] at hy; cases hy
    | held => rfl
  cases hfind : l.find? (fun e => e.kind == .claiming) with
  | none =>
    obtain ⟨e, b, rfl⟩ := List.exists_cons_of_ne_nil hl
    refine ⟨[], e, b, rfl, by rw [makeRoom, hfind]; rfl, .inr ⟨rfl, fun y hy => hheld y ?_⟩⟩
    simpa using List.find?_eq_none.mp hfind y hy
  | some e =>
    obtain ⟨hkind, a, b, rfl, hbefore⟩ := List.find?_eq_some_iff_append.mp hfind
    have hfirst : e ∉ a := fun he => by have := hbefore e he; rw [hkind] at this; cases this
    refine ⟨a, e, b, rfl, ?_, .inl ⟨by simpa using hkind, fun y hy => hheld y (by simpa using hbefore y hy)⟩⟩
    rw [makeRoom, hfind]
    simp [List.erase_append_right _ hfirst]

end

/-! ### Judging a claim (R53 to R56) -/

/-- A direct freeing leaves the district's view, but for a bar lost on its way to the bus (R37). -/
theorem directFree_dv (u : UnitNo) (s : State) : (directFree u s).dv = { s.dv with lostBars := (directFree u s).dv.lostBars } := by
  have hsilent : (freedSilently u s).dv = { s.dv with lostBars := (freedSilently u s).dv.lostBars } := by
    unfold freedSilently
    split
    · obtain ⟨w, q, hdrop, -⟩ := offerDrop_writes .ec u (withdrawOrders .ec (isAssignFor u) (freedDirect u s)).1
      have hdv : (offerDrop .ec u (withdrawOrders .ec (isAssignFor u) (freedDirect u s)).1).dv = s.dv := by rw [hdrop]; rfl
      rw [(isoRemove_search u _).dv, hdv]
    · rfl
  rw [(directFree_reports u s).dv, hsilent]

/-- A direct freeing offers two notices at most: ROGUE_UNLOCATED's and the released claim. -/
theorem directFree_keepsRoom {u : UnitNo} {s : State} {x : Serial} {n : Nat} (hx : (getU u s).serial = some x)
    (h : OutboxRoom (n + 2) s) : OutboxRoom n (directFree u s) := by
  rw [directFree_of_serial hx]
  exact offerNotice_keepsRoom (by simp [NoticeBody.cls]) (freedSilently_room h)

section
variable {x : Serial} {t : TreeStation} {level : Nat} {k : StoredClaim} {s : State} {u : UnitNo}

theorem judgeClaim_unheld {j : ClaimKind} (hu : findUnit x s = none) : judgeClaim x t level j s = s := by
  simp [judgeClaim, hu]

theorem judgeClaim_stands (hu : findUnit x s = some u) (hn : neverServed (getU u s) = true)
    (hw : winsClaim (getU u s) level t s = true) : judgeClaim x t level .claiming s = s := by
  simp [judgeClaim, hu, hn, hw]

theorem judgeClaim_yields (hu : findUnit x s = some u) (hn : neverServed (getU u s) = true)
    (hw : k = .held ∨ ¬winsClaim (getU u s) level t s = true) : judgeClaim x t level (storedKind k) s = yieldClaim u x s := by
  rcases hw with rfl | hw
  · simp [judgeClaim, hu, hn, storedKind]
  · cases k <;> simp [judgeClaim, hu, hn, hw, storedKind]

theorem not_neverServed_of_inService {r : UnitRecord} (h : inService r = true) : neverServed r = false := by
  revert h
  simp only [neverServed, inService, serves]
  cases r.state <;> cases r.returning <;> simp

theorem judgeClaim_answers (hu : findUnit x s = some u) (hi : inService (getU u s) = true) :
    judgeClaim x t level .claiming s = queueHeld u s := by
  simp [judgeClaim, hu, hi, not_neverServed_of_inService hi]

theorem judgeClaim_disputes (hu : findUnit x s = some u) (hi : inService (getU u s) = true) : judgeClaim x t level .held s
    = occur .duplicateSerial (some x) (modU u (fun r => { r with disputed := true }) s) := by
  simp [judgeClaim, hu, hi, not_neverServed_of_inService hi]

theorem judgeClaim_retiring {j : ClaimKind} (hu : findUnit x s = some u) (hr : (getU u s).state = .retiring) :
    judgeClaim x t level j s = s := by
  simp [judgeClaim, hu, neverServed, inService, serves, hr]

/-- Every record that holds a serial is in one of the three conditions that a claim may meet. -/
theorem holder_cases (hu : findUnit x s = some u) :
    neverServed (getU u s) = true ∨ inService (getU u s) = true ∨ (getU u s).state = .retiring := by
  obtain ⟨hfree, -⟩ := findUnit_some hu
  revert hfree
  simp only [neverServed, inService, serves]
  cases (getU u s).state <;> cases (getU u s).returning <;> simp

theorem queueHeld_dv (u : UnitNo) (s : State) : (queueHeld u s).dv = { s.dv with lostBars := (queueHeld u s).dv.lostBars } :=
  (queueHeld_reports u s).dv

theorem judgeClaim_dv {j : ClaimKind} : (judgeClaim x t level j s).dv = { s.dv with lostBars := (judgeClaim x t level j s).dv.lostBars } := by
  have hyield : ∀ u, (yieldClaim u x s).dv = { s.dv with lostBars := (yieldClaim u x s).dv.lostBars } := fun u => by
    rw [yieldClaim, (occur_reports _ _ _).dv, directFree_dv]
  unfold judgeClaim
  split
  · rfl
  split
  · split
    · split
      · rfl
      · exact hyield _
    · exact hyield _
    · rfl
  split
  · split
    · exact queueHeld_dv _ s
    · exact (occur_reports _ _ _).dv
    · rfl
  · rfl

/-- A claim from a peer with a level in range is stored and then judged (R152, R158). -/
theorem exec_claimNotice {h : NoticeHead} {peer : TreeStation} {level : BitVec 16} (hheld : s.held = false) (hp : PeerNotice h peer s)
    (hl : level.toNat ≤ 1023) : exec (.claimNotice h x level k) s
      = .next (judgeClaim x peer level.toNat (storedKind k) (storeClaim x peer level.toNat k s)) := by
  refine (unlessHeld_of_not_held hheld _).trans ?_
  simp [claimStep, peerOf_of_peerNotice hp, Nat.not_lt.mpr hl]

end

/-- Settles O38: the three cases of `storeClaim`, which the judgement leaves as they are. -/
theorem peerClaimIsStored : Obligations.PeerClaimIsStored := by
  unfold Obligations.PeerClaimIsStored
  intro h x level k peer s hheld hp hl
  let v := storeClaim x peer level.toNat k s
  refine ⟨_, exec_claimNotice hheld hp hl, fun hkey => ?_, fun hkey hlen => ?_, fun hkey hlen => ?_, fun hu => ?_⟩
  · rw [judgeClaim_dv, storeClaim_again hkey]
    exact ⟨rfl, rfl⟩
  · rw [judgeClaim_dv, storeClaim_free hkey hlen]
    exact ⟨rfl, rfl⟩
  · obtain ⟨a, e, b, hsplit, hroom, hwhich⟩ := makeRoom_split (l := s.dv.claims) (fun h => by simp [h] at hlen)
    rw [judgeClaim_dv, storeClaim_full hkey hlen, hroom]
    exact ⟨a, e, b, hsplit, rfl, hwhich, rfl⟩
  · have hnone : findUnit x v = none := by
      rw [show v = _ from storeClaim_frame]
      exact hu
    rw [judgeClaim_unheld hnone]
    exact storeClaim_frame

/-- Settles O39: one equation of `judgeClaim` for each clause, upon the stored claim. -/
theorem peerClaimIsJudged : Obligations.PeerClaimIsJudged := by
  unfold Obligations.PeerClaimIsJudged
  intro h x level k peer s u hheld hp hl hu
  obtain ⟨dv, hv⟩ : ∃ dv, storeClaim x peer level.toNat k s = { s with dv := dv } := ⟨_, storeClaim_frame⟩
  let v : State := { s with dv := dv }
  have hexec : exec (.claimNotice h x level k) s = .next (judgeClaim x peer level.toNat (storedKind k) v) := by
    rw [exec_claimNotice hheld hp hl, hv]
  have huv : findUnit x v = some u := hu
  have hwins : winsClaim (getU u v) level.toNat peer v = true
      ↔ (level.toNat < (getU u s).level ∨ ((getU u s).level = level.toNat ∧ s.sc.station < peer)) := by
    show winsClaim (getU u s) level.toNat peer s = true ↔ _
    simp [winsClaim]
  have hx : (getU u s).serial = some x := (findUnit_some hu).2
  refine ⟨_, hexec, ?_⟩
  rcases holder_cases hu with hn | hi | hr
  case inl =>
    have hnotIn : ¬inService (getU u s) = true := fun h => by rw [not_neverServed_of_inService h] at hn; cases hn
    have hnotRetiring : (getU u s).state ≠ .retiring := fun h => by simp [neverServed, h] at hn
    by_cases hw : k = .claiming ∧ winsClaim (getU u v) level.toNat peer v = true
    · obtain ⟨rfl, hw⟩ := hw
      rw [show storedKind .claiming = .claiming from rfl, judgeClaim_stands huv hn hw]
      exact ⟨otherUnits_of_tables, rfl, fun _ _ _ => ⟨rfl, rfl⟩,
        fun _ hlost => absurd (hwins.mp hw) (hlost.resolve_left (by simp)), fun h => absurd h hnotIn, fun h => absurd h hnotIn,
        fun h => absurd h hnotRetiring⟩
    · have hlost : k = .held ∨ ¬winsClaim (getU u v) level.toNat peer v = true := by
        cases k with
        | held => exact .inl rfl
        | claiming => exact .inr fun h => hw ⟨rfl, h⟩
      have r := occur_reports .claimYielded (some x) (directFree u v)
      rw [judgeClaim_yields huv hn hlost, yieldClaim]
      refine ⟨?_, ?_, fun _ hk hwin => absurd ⟨hk, hwins.mpr hwin⟩ hw, fun _ _ => ⟨?_, ?_, fun hclaiming => ?_, fun hroom => ?_⟩,
        fun h => absurd h hnotIn, fun h => absurd h hnotIn, fun h => absurd h hnotRetiring⟩
      · exact ((otherUnits_of_tables (t := v)).trans (directFree_otherUnits u v)).trans (r.otherUnits u)
      · rw [r.ec]
        exact directFree_permits u v
      · exact ((freedDirectly_directFree u v).of_state rfl).reports r
      · exact (occurredOnce_occur (by decide)).earlier (getK_directFree (by decide))
      · have hstate : (getU u v).state ≠ .ranging := by
          show (getU u s).state ≠ .ranging
          rw [hclaiming]
          simp
        rw [r.tli, directFree_tli hstate]
      · have hroomv : OutboxRoom (2 + 1) v := hroom
        exact (directFree_inOutbox (s := v) hx (hroomv.mono (by omega))).occur (directFree_keepsRoom hx hroomv)
  case inr.inl =>
    have hnotNever : ¬neverServed (getU u s) = true := by rw [not_neverServed_of_inService hi]; simp
    have hnotRetiring : (getU u s).state ≠ .retiring := fun h => by simp [inService, serves, h] at hi
    cases k with
    | claiming =>
      rw [show storedKind .claiming = .claiming from rfl, judgeClaim_answers huv hi]
      refine ⟨(otherUnits_of_tables (t := v)).trans (queueHeld_otherUnits u v), by rw [(queueHeld_reports u v).ec],
        fun h => absurd h hnotNever, fun h => absurd h hnotNever, fun _ _ hroom => ⟨fun hs => ?_, fun hs => ?_, ?_⟩,
        fun _ h => (by cases h), fun h => absurd h hnotRetiring⟩
      · rw [queueHeld_room (s := v) hx hroom, getU_modU_same, (offerNotice_reports _ v).getU]
        exact if_pos hs
      · rw [queueHeld_room (s := v) hx hroom, getU_modU_same, (offerNotice_reports _ v).getU]
        exact if_neg (by show ¬serves (getU u s) = true; simp [serves, hs])
      · exact queueHeld_inOutbox (s := v) hx hroom
    | held =>
      let w := modU u (fun r => { r with disputed := true }) v
      have r := occur_reports .duplicateSerial (some x) w
      rw [show storedKind .held = .held from rfl, judgeClaim_disputes huv hi]
      refine ⟨?_, by rw [r.ec]; rfl, fun h => absurd h hnotNever, fun h => absurd h hnotNever, fun _ h => (by cases h),
        fun _ _ => ⟨?_, (occurredOnce_occur (by decide)).earlier rfl⟩, fun h => absurd h hnotRetiring⟩
      · exact ((otherUnits_of_tables (t := v)).trans (modU_otherUnits u _ v)).trans (r.otherUnits u)
      · rw [r.getU]
        exact getU_modU_same _ _ _
  case inr.inr =>
    have hnotNever : ¬neverServed (getU u s) = true := by simp [neverServed, hr]
    have hnotIn : ¬inService (getU u s) = true := by simp [inService, serves, hr]
    rw [judgeClaim_retiring huv hr]
    exact ⟨otherUnits_of_tables, rfl, fun h => absurd h hnotNever, fun h => absurd h hnotNever, fun h => absurd h hnotIn,
      fun h => absurd h hnotIn, fun _ => ⟨rfl, rfl⟩⟩

end Sys2Proof.Machine

/-!
PROOFS. The District View: bars (O41) and presence notices (O42).
-/
namespace Sys2Proof.Machine

-- One proof after another, as in the tests: side by side, the proofs of one text hold more stacks than the check's memory has room for.
set_option Elab.async false

/-! ### The barred list (R162) -/

section
variable {e : BarEntry} {s : State}

theorem addBar_listed (h : ∃ b ∈ s.dv.barred, b.serial = e.serial) : addBar e s = s := by
  rw [addBar, if_pos ((isBarred_iff _ _).mpr h)]

theorem addBar_free (h : ∀ b ∈ s.dv.barred, b.serial ≠ e.serial) (hlen : s.dv.barred.length < 16) :
    addBar e s = { s with dv := { s.dv with barred := s.dv.barred ++ [e] } } := by
  rw [addBar, if_neg (by rw [(isBarred_eq_false_iff _ _).mpr h]; simp), if_neg (Nat.not_le.mpr hlen)]

theorem addBar_full (h : ∀ b ∈ s.dv.barred, b.serial ≠ e.serial) (hlen : 16 ≤ s.dv.barred.length) : addBar e s
    = { s with dv := { s.dv with barred := s.dv.barred.drop 1 ++ [e], evictions := satAdd 65535 s.dv.evictions 1 } } := by
  rw [addBar, if_neg (by rw [(isBarred_eq_false_iff _ _).mpr h]; simp), if_pos hlen]

/-- A serial is barred once its entry has been added. -/
theorem isBarred_addBar_same : isBarred e.serial (addBar e s) = true := by
  by_cases h : ∃ b ∈ s.dv.barred, b.serial = e.serial
  · rw [addBar_listed h]
    exact (isBarred_iff _ _).mpr h
  · have hne : ∀ b ∈ s.dv.barred, b.serial ≠ e.serial := fun b hb hx => h ⟨b, hb, hx⟩
    rw [isBarred_iff]
    refine ⟨e, ?_, rfl⟩
    by_cases hlen : s.dv.barred.length < 16
    · rw [addBar_free hne hlen]; simp
    · rw [addBar_full hne (Nat.not_lt.mp hlen)]; simp

theorem addBar_eq (e : BarEntry) (s : State) : addBar e s = { s with dv := (addBar e s).dv } := by
  unfold addBar
  split
  · rfl
  · split <;> rfl

end

/-! ### A bar on this station's record (R165) -/

section
variable {x : Serial} {s : State} {u : UnitNo}

theorem barOnRecord_unheld (hu : findUnit x s = none) : barOnRecord x s = s := by
  simp [barOnRecord, hu]

theorem barOnRecord_freed (hu : findUnit x s = some u) (hn : neverServed (getU u s) = true) :
    barOnRecord x s = occur .barredSeen (some x) (directFree u s) := by
  simp [barOnRecord, hu, hn]

theorem barOnRecord_disputed (hu : findUnit x s = some u) (hi : inService (getU u s) = true) :
    barOnRecord x s = occur .barredInService (some x) (modU u (fun r => { r with disputed := true }) s) := by
  simp [barOnRecord, hu, hi, not_neverServed_of_inService hi]

theorem barOnRecord_retiring (hu : findUnit x s = some u) (hr : (getU u s).state = .retiring) : barOnRecord x s = s := by
  simp [barOnRecord, hu, neverServed, inService, serves, hr]

theorem barOnRecord_dv : (barOnRecord x s).dv = { s.dv with lostBars := (barOnRecord x s).dv.lostBars } := by
  unfold barOnRecord
  split
  · rfl
  split
  · rw [(occur_reports _ _ _).dv, directFree_dv]
  split
  · exact (occur_reports _ _ _).dv
  · rfl

theorem barOnRecord_permits : (barOnRecord x s).ec.permits = s.ec.permits := by
  unfold barOnRecord
  split
  · rfl
  split
  · rw [(occur_reports _ _ _).ec]
    exact directFree_permits _ _
  split
  · rw [(occur_reports _ _ _).ec]
    rfl
  · rfl

theorem barReasonOf_some {reason : Byte} {why : BarReason} (h : reason = 1 ∧ why = .rogue ∨ reason = 2 ∧ why = .tail) :
    barReasonOf reason = some why := by
  rcases h with ⟨rfl, rfl⟩ | ⟨rfl, rfl⟩ <;> rfl

theorem barReasonOf_none {reason : Byte} (h1 : reason ≠ 1) (h2 : reason ≠ 2) : barReasonOf reason = none := by
  rw [barReasonOf, if_neg h1, if_neg h2]

theorem ownBarred_iff : ownBarred x s = true ↔ ∃ e ∈ s.dv.barred, e.serial = x ∧ e.origin = s.sc.station := by
  simp [ownBarred]

end

/-- Settles O41: the entry by `addBar`, its effect by `barOnRecord`, and the one offer of a lost bar. -/
theorem barsAreStoredAndAct : Obligations.BarsAreStoredAndAct := by
  unfold Obligations.BarsAreStoredAndAct
  refine ⟨fun h x reason why peer s hheld hp hwhy => ?bar, fun h x reason s hheld h1 h2 => ?unknown, fun x s b hheld hb => ?reoffer⟩
  case bar =>
    let v := addBar ⟨x, peer, why⟩ s
    have hstep : barStep h x reason s = barOnRecord x v := by
      simp [barStep, peerOf_of_peerNotice hp, barReasonOf_some hwhy, v]
    refine ⟨_, (unlessHeld_of_not_held hheld _).trans (by rw [hstep]), fun hlisted => ?_, fun hnew hlen => ?_, fun hnew hlen => ?_, ?_,
      fun hu => ?_, fun u hu => ?_⟩
    · rw [barOnRecord_dv, show v = s from addBar_listed hlisted]
      exact ⟨rfl, rfl⟩
    · rw [barOnRecord_dv, show v = _ from addBar_free hnew hlen]
      exact ⟨rfl, rfl⟩
    · rw [barOnRecord_dv, show v = _ from addBar_full hnew hlen]
      exact ⟨rfl, rfl⟩
    · rw [barOnRecord_permits, show v = _ from addBar_eq _ s]
    · have huv : findUnit x v = none := by rw [show v = _ from addBar_eq _ s]; exact hu
      rw [barOnRecord_unheld huv]
      exact addBar_eq _ s
    · obtain ⟨dv, hv⟩ : ∃ dv, v = { s with dv := dv } := ⟨_, addBar_eq _ s⟩
      generalize v = w at hv ⊢
      subst hv
      let w : State := { s with dv := dv }
      have huw : findUnit x w = some u := hu
      rcases holder_cases hu with hn | hi | hr
      · have hnotIn : ¬inService (getU u s) = true := fun h => by rw [not_neverServed_of_inService h] at hn; cases hn
        have hnotRetiring : (getU u s).state ≠ .retiring := fun h => by simp [neverServed, h] at hn
        have r := occur_reports .barredSeen (some x) (directFree u w)
        rw [barOnRecord_freed huw hn]
        exact ⟨((otherUnits_of_tables (t := w)).trans (directFree_otherUnits u w)).trans (r.otherUnits u),
          fun _ => ⟨((freedDirectly_directFree u w).of_state rfl).reports r,
            (occurredOnce_occur (by decide)).earlier (getK_directFree (by decide))⟩,
          fun h => absurd h hnotIn, fun h => absurd h hnotRetiring⟩
      · have hnotNever : ¬neverServed (getU u s) = true := by rw [not_neverServed_of_inService hi]; simp
        have hnotRetiring : (getU u s).state ≠ .retiring := fun h => by simp [inService, serves, h] at hi
        have r := occur_reports .barredInService (some x) (modU u (fun r => { r with disputed := true }) w)
        rw [barOnRecord_disputed huw hi]
        exact ⟨((otherUnits_of_tables (t := w)).trans (modU_otherUnits u _ w)).trans (r.otherUnits u), fun h => absurd h hnotNever,
          fun _ => ⟨(r.getU u).trans (getU_modU_same _ _ _), (occurredOnce_occur (by decide)).earlier rfl⟩,
          fun h => absurd h hnotRetiring⟩
      · have hnotNever : ¬neverServed (getU u s) = true := by simp [neverServed, hr]
        have hnotIn : ¬inService (getU u s) = true := by simp [inService, serves, hr]
        rw [barOnRecord_retiring huw hr]
        exact ⟨otherUnits_of_tables, fun h => absurd h hnotNever, fun h => absurd h hnotIn, fun _ => ⟨rfl, rfl, rfl⟩⟩
  case unknown =>
    have hstep : barStep h x reason s = s := by
      simp [barStep, barReasonOf_none h1 h2]
    exact (unlessHeld_of_not_held hheld _).trans (by rw [hstep])
  case reoffer =>
    let v : State := { s with dv := { s.dv with lostBars := s.dv.lostBars.erase b } }
    have hfind : s.dv.lostBars.find? (dueBar x) = some b := hb
    have hstep : barReofferStep x s = if ownBarred x v then offerNotice (.bar x b.reason) v else v := by
      simp only [barReofferStep, hfind, v]
    have hown : ownBarred x v = true ↔ ∃ e ∈ s.dv.barred, e.serial = x ∧ e.origin = s.sc.station := ownBarred_iff
    have r := offerNotice_reports (.bar x b.reason) v
    have hcls : (NoticeBody.bar x b.reason).cls ≠ 6 := by simp [NoticeBody.cls]
    refine ⟨_, (unlessHeld_of_not_held hheld _).trans (by rw [hstep]), ?_, ?_, fun hentry hroom => ?_, fun hentry => ?_⟩
    · split
      · exact r.ut
      · rfl
    · split
      · rw [r.dv]
      · rfl
    · rw [if_pos (hown.mpr hentry)]
      refine ⟨offerNotice_inOutbox (s := v) hcls hroom.lt, ?_⟩
      rw [offerNotice_room (s := v) hcls hroom.lt]
    · rw [if_neg fun h => by obtain ⟨e, he, hkey⟩ := hown.mp h; exact hentry e he hkey]

/-! ### A run of held claims (R167, step 3) -/

section
variable {l : List UnitNo} {u : UnitNo} {s : State}

/-- Beside the records' refreshes, a run of held claims is a report. -/
theorem foldl_queueHeld_reports (l : List UnitNo) (s : State) :
    OnlyReports { s with ut := (l.foldl (fun t u => queueHeld u t) s).ut } (l.foldl (fun t u => queueHeld u t) s) := by
  induction l generalizing s with
  | nil => exact .refl s
  | cons u l ih =>
    rw [List.foldl_cons]
    exact ((queueHeld_reports u s).withRecords _).trans (ih (queueHeld u s))

theorem getU_queueHeld_other {v : UnitNo} (hv : v ≠ u) : getU v (queueHeld u s) = getU v s := (queueHeld_otherUnits u s v hv).1

theorem foldl_queueHeld_other (hu : u ∉ l) : getU u (l.foldl (fun t u => queueHeld u t) s) = getU u s := by
  induction l generalizing s with
  | nil => rfl
  | cons v l ih =>
    obtain ⟨huv, hl⟩ := List.ne_and_not_mem_of_not_mem_cons hu
    rw [List.foldl_cons, ih hl, getU_queueHeld_other huv]

theorem queueHeld_nameless (hx : (getU u s).serial = none) : queueHeld u s = s := by
  rw [queueHeld]
  simp only [hx]

/-- A held claim with room for it: the outbox has one notice more at most, nothing else is raised, and what stood in it stands. -/
theorem queueHeld_withRoom {n : Nat} (hr : OutboxRoom (n + 1) s) : OutboxRoom n (queueHeld u s)
    ∧ (queueHeld u s).alarms = s.alarms ∧ ∀ b, InOutbox b s → InOutbox b (queueHeld u s) := by
  cases hx : (getU u s).serial with
  | none =>
    rw [queueHeld_nameless hx]
    exact ⟨hr.mono (Nat.le_succ n), rfl, fun _ => id⟩
  | some x =>
    have hcls : (NoticeBody.claim x (getU u s).level .held u).cls ≠ 6 := by simp [NoticeBody.cls]
    refine ⟨queueHeld_keepsRoom hx hr, ?_, fun b hb => ?_⟩
    · rw [queueHeld_room hx (hr.mono (by omega)), modU_alarms, offerNotice_room hcls (hr.mono (by omega) : OutboxRoom 1 s).lt]
    · rw [queueHeld_room hx (hr.mono (by omega))]
      exact (hb.offerNotice hcls rfl (hr.mono (by omega))).congr rfl

/-- A run of held claims with room for all of them. -/
theorem foldl_queueHeld_withRoom {n : Nat} (hr : OutboxRoom (l.length + n) s) :
    OutboxRoom n (l.foldl (fun t u => queueHeld u t) s) ∧ (l.foldl (fun t u => queueHeld u t) s).alarms = s.alarms
      ∧ ∀ b, InOutbox b s → InOutbox b (l.foldl (fun t u => queueHeld u t) s) := by
  induction l generalizing s with
  | nil =>
    rw [List.length_nil, Nat.zero_add] at hr
    exact ⟨hr, rfl, fun _ => id⟩
  | cons u l ih =>
    have hr' : OutboxRoom (l.length + n + 1) s := by rwa [List.length_cons, Nat.succ_add] at hr
    obtain ⟨hroom, halarms, hin⟩ := queueHeld_withRoom (u := u) hr'
    obtain ⟨hroom', halarms', hin'⟩ := ih hroom
    rw [List.foldl_cons]
    exact ⟨hroom', halarms'.trans halarms, fun b hb => hin' b (hin b hb)⟩

/-- Each serving record of the run has its claim in the outbox and its refresh started. -/
theorem foldl_queueHeld_claims {x : Serial} (hl : l.Nodup) (hu : u ∈ l) (hr : OutboxRoom l.length s)
    (hserves : serves (getU u s) = true) (hx : (getU u s).serial = some x) :
    getU u (l.foldl (fun t u => queueHeld u t) s) = { getU u s with claimRefresh := 4000 }
      ∧ InOutbox (.claim x (getU u s).level .held u) (l.foldl (fun t u => queueHeld u t) s) := by
  induction l generalizing s with
  | nil => cases hu
  | cons v l ih =>
    obtain ⟨hv, hl⟩ := List.nodup_cons.mp hl
    obtain ⟨hroom, -, -⟩ := queueHeld_withRoom (u := v) hr
    rw [List.foldl_cons]
    rcases List.mem_cons.mp hu with rfl | hmem
    · have hroom1 : OutboxRoom 1 s := hr.mono (by simp)
      have hU : getU u (queueHeld u s) = { getU u s with claimRefresh := 4000 } := by
        rw [queueHeld_room hx hroom1, getU_modU_same, (offerNotice_reports _ s).getU]
        exact if_pos hserves
      obtain ⟨-, -, hin'⟩ := foldl_queueHeld_withRoom (l := l) (n := 0) hroom
      exact ⟨(foldl_queueHeld_other hv).trans hU, hin' _ (queueHeld_inOutbox hx hroom1)⟩
    · have huv : u ≠ v := fun h => hv (h ▸ hmem)
      have hU := getU_queueHeld_other (s := s) huv
      have h := ih hl hmem hroom (by rwa [hU]) (by rwa [hU])
      rwa [hU] at h

end

/-! ### A run of bar notices (R167, step 4) -/

section
variable {l : List BarEntry} {s : State}

theorem foldl_offerBar_reports (l : List BarEntry) (s : State) :
    OnlyReports s (l.foldl (fun t e => offerNotice (.bar e.serial e.reason) t) s) := by
  induction l generalizing s with
  | nil => exact .refl s
  | cons e l ih =>
    rw [List.foldl_cons]
    exact (offerNotice_reports _ s).trans (ih _)

theorem foldl_offerBar_withRoom (hr : OutboxRoom l.length s) :
    (l.foldl (fun t e => offerNotice (.bar e.serial e.reason) t) s).alarms = s.alarms
      ∧ (∀ b, InOutbox b s → InOutbox b (l.foldl (fun t e => offerNotice (.bar e.serial e.reason) t) s))
      ∧ ∀ e ∈ l, InOutbox (.bar e.serial e.reason) (l.foldl (fun t e => offerNotice (.bar e.serial e.reason) t) s) := by
  induction l generalizing s with
  | nil => exact ⟨rfl, fun _ => id, fun e he => by cases he⟩
  | cons e l ih =>
    have hcls : (NoticeBody.bar e.serial e.reason).cls ≠ 6 := by simp [NoticeBody.cls]
    have hroom1 : OutboxRoom 1 s := hr.mono (by simp)
    have hroom : OutboxRoom l.length (offerNotice (.bar e.serial e.reason) s) := offerNotice_keepsRoom hcls hr
    obtain ⟨halarms, hin, hall⟩ := ih hroom
    rw [List.foldl_cons]
    refine ⟨halarms.trans ?_, fun b hb => hin b (hb.offerNotice hcls rfl hroom1), fun d hd => ?_⟩
    · rw [offerNotice_room hcls hroom1.lt]
    · rcases List.mem_cons.mp hd with rfl | hd
      · exact hin _ (offerNotice_inOutbox hcls hroom1.lt)
      · exact hall d hd

end

/-- What a presence notice does before it is answered (R167, steps 1 and 2). -/
def presenceTaken (t : TreeStation) (s : State) : State :=
  let s1 := recomputeF (setLoad t absentLoad s)
  { s1 with dv := { s1.dv with claims := s1.dv.claims.filter (fun e => e.peer ≠ t) } }

/-- The answer runs over the serving records and the own bars as they stood before. -/
theorem presenceStep_eq {h : NoticeHead} {t : TreeStation} {s : State} (hp : PeerNotice h t s) : presenceStep h s
    = (s.dv.barred.filter (fun e => e.origin == s.sc.station)).foldl (fun t e => offerNotice (.bar e.serial e.reason) t)
        ((allUnits.filter (fun u => serves (getU u s))).foldl (fun t u => queueHeld u t) (presenceTaken t s)) := by
  have r := foldl_queueHeld_reports (allUnits.filter (fun u => serves (getU u s))) (presenceTaken t s)
  have hbars : ∀ v : State, v.dv.barred = s.dv.barred → v.sc.station = s.sc.station →
      answerBars v = (s.dv.barred.filter (fun e => e.origin == s.sc.station)).foldl
        (fun t e => offerNotice (.bar e.serial e.reason) t) v := fun v hb hs => by
    rw [answerBars, hb, hs]
  rw [presenceStep, peerOf_of_peerNotice hp]
  show answerBars (answerHeld (presenceTaken t s)) = _
  have hheld : answerHeld (presenceTaken t s)
      = (allUnits.filter (fun u => serves (getU u s))).foldl (fun t u => queueHeld u t) (presenceTaken t s) := rfl
  rw [hheld]
  exact hbars _ (by rw [r.dv]; rfl) (by rw [r.sc]; rfl)

/-- Settles O42: the two runs of the answer, each with room for all of it. -/
theorem presenceNoticeIsAnswered : Obligations.PresenceNoticeIsAnswered := by
  unfold Obligations.PresenceNoticeIsAnswered
  intro h cause reach peer s hheld hp
  let units := allUnits.filter (fun u => serves (getU u s))
  let bars := s.dv.barred.filter (fun e => e.origin == s.sc.station)
  let v := presenceTaken peer s
  let w := units.foldl (fun t u => queueHeld u t) v
  have hstep : presenceStep h s = bars.foldl (fun t e => offerNotice (.bar e.serial e.reason) t) w := presenceStep_eq hp
  have rw' : OnlyReports { v with ut := w.ut } w := foldl_queueHeld_reports units v
  generalize ht : bars.foldl (fun t e => offerNotice (.bar e.serial e.reason) t) w = t at hstep
  have rt : OnlyReports w t := ht ▸ foldl_offerBar_reports bars w
  have hdv : t.dv = { v.dv with lostBars := t.dv.lostBars } := by rw [rt.dv, rw'.dv]
  have hsc : t.sc.settings = s.sc.settings := by rw [rt.sc, rw'.sc]; rfl
  have hfactor : FactorIsCurrent v := (recomputeF_current (setLoad peer absentLoad s)).congr rfl rfl rfl
  have hU : ∀ u, getU u t = getU u w := rt.getU
  refine ⟨t, (unlessHeld_of_not_held hheld _).trans (by rw [hstep]), by rw [hdv]; rfl,
    hfactor.congr (by rw [hdv]) (by rw [hdv]) hsc, by rw [hdv]; rfl, by rw [hdv]; rfl, by rw [hdv]; rfl, fun u hu => ?_, fun hroom => ?_⟩
  · rw [hU]
    exact foldl_queueHeld_other (s := v) (by simp [units, hu])
  · have hroomv : OutboxRoom (units.length + bars.length) v := by
      rwa [Nat.add_assoc] at hroom
    obtain ⟨hroomw, halarms, -⟩ := foldl_queueHeld_withRoom hroomv
    obtain ⟨halarms', hkept, hallBars⟩ := foldl_offerBar_withRoom hroomw
    rw [← ht]
    refine ⟨halarms'.trans halarms, fun u x hserves hx => ?_, fun e he horigin => ?_⟩
    · have hmem : u ∈ units := List.mem_filter.mpr ⟨mem_allUnits u, hserves⟩
      obtain ⟨hrecord, hclaim⟩ := foldl_queueHeld_claims (s := v) (allUnits_nodup.filter _) hmem (hroomv.mono (Nat.le_add_right _ _)) hserves hx
      refine ⟨?_, hkept _ hclaim⟩
      rw [ht, hU]
      exact hrecord
    · exact hallBars e (List.mem_filter.mpr ⟨he, by simp [horigin]⟩)

end Sys2Proof.Machine

/-!
PROOFS. Pacing (O36).
-/
namespace Sys2Proof.Machine

-- One proof after another, as in the tests: side by side, the proofs of one text hold more stacks than the check's memory has room for.
set_option Elab.async false

/-! ### The ring of the units (R145) -/

theorem ringAfter_length (p : UnitNo) : (ringAfter p).length = 64 := by simp [ringAfter, allUnits]

theorem ringAfter_getElem (p : UnitNo) {i : Nat} (h : i < (ringAfter p).length) :
    ((ringAfter p)[i]).val = (i + p.val + 1) % 64 := by
  rw [ringAfter_length] at h
  simp only [ringAfter, allUnits, List.getElem_map, List.getElem_finRange, Fin.val_add, Fin.val_one, Fin.val_cast]
  omega

theorem mem_ringAfter (p u : UnitNo) : u ∈ ringAfter p := by
  rw [ringAfter, List.mem_map]
  exact ⟨u - p - 1, mem_allUnits _, by abel⟩

theorem ringAfter_nodup (p : UnitNo) : (ringAfter p).Nodup :=
  allUnits_nodup.map fun a b h => by simpa using h

/-- The ring from a unit on is the ring turned to it. -/
theorem ringAfter_turned {p u : UnitNo} {a b : List UnitNo} (h : ringAfter p = a ++ u :: b) : ringAfter u = b ++ (a ++ [u]) := by
  have hlen : a.length + (b.length + 1) = 64 := by
    have := congrArg List.length h
    rw [ringAfter_length] at this
    simpa using this.symm
  have hat : ∀ i (hi : i < (a ++ u :: b).length), ((a ++ u :: b)[i]).val = (i + p.val + 1) % 64 := fun i hi => by
    rw [← ringAfter_getElem p (i := i) (by rw [h]; exact hi)]
    simp only [h]
  have hu : u.val = (a.length + p.val + 1) % 64 := by
    rw [← hat a.length (by simp)]
    simp
  refine List.ext_getElem (by rw [ringAfter_length]; simp; omega) fun i hi _ => Fin.ext ?_
  rw [ringAfter_getElem u hi, hu]
  rw [ringAfter_length] at hi
  by_cases h1 : i < b.length
  · have hb := hat (a.length + 1 + i) (by simp; omega)
    rw [List.getElem_append_right (by omega), List.getElem_cons] at hb
    rw [List.getElem_append_left h1]
    simp only [show ¬a.length + 1 + i - a.length = 0 by omega, dif_neg, not_false_eq_true,
      show a.length + 1 + i - a.length - 1 = i by omega] at hb
    rw [hb]
    omega
  rw [List.getElem_append_right (Nat.not_lt.mp h1)]
  by_cases h2 : i - b.length < a.length
  · have ha := hat (i - b.length) (by simp; omega)
    rw [List.getElem_append_left h2] at ha ⊢
    rw [ha]
    omega
  · rw [List.getElem_append_right (Nat.not_lt.mp h2)]
    simp only [List.getElem_singleton, hu]
    omega

/-! ### One usage notice (R145, R175) -/

/-- The usage notices of an outbox. -/
def usageBodies (s : State) : List NoticeBody := (s.sbp.outbox.filter (fun m => m.body.cls == 6)).map (·.body)

theorem insertNotice_usages {n : Notice} {box : List Notice} (hn : n.body.cls = 6) :
    (insertNotice n box).filter (fun m => m.body.cls == 6) = box.filter (fun m => m.body.cls == 6) ++ [n] := by
  have hlow : ∀ m : Notice, (m.body.cls == 6 && decide (m.body.cls ≤ 6)) = (m.body.cls == 6) := fun m => by
    by_cases h : m.body.cls = 6 <;> simp [h]
  have hhigh : ∀ m : Notice, (m.body.cls == 6 && decide (6 < m.body.cls)) = false := fun m => by
    by_cases h : m.body.cls = 6 <;> simp [h]
  simp [insertNotice, List.filter_append, List.filter_filter, hn, hlow, hhigh]

section
variable {u : UnitNo} {s t : State}

/-- A usage notice that finds room is not refused. -/
theorem outboxRefuses_usage (hheld : usageHeld s.sbp.outbox < 4) (hroom : s.sbp.outbox.length < 32) :
    outboxRefuses (.usage u none) s = false := by
  have hbox : outboxFor (.usage u none) s = s.sbp.outbox := rfl
  simp [outboxRefuses, hbox, Nat.not_le.mpr hheld, Nat.not_le.mpr hroom]

/-- The outbox with the usage notice of unit `u`. -/
def usageJoined (u : UnitNo) (s : State) : State :=
  { s with sbp := { s.sbp with outbox := insertNotice ⟨s.sbp.nextRef, .usage u none⟩ s.sbp.outbox, nextRef := s.sbp.nextRef + 1 } }

theorem offerRaw_usage (hheld : usageHeld s.sbp.outbox < 4) (hroom : s.sbp.outbox.length < 32) :
    offerRaw (.usage u none) s = usageJoined u s := by
  have hbox : outboxFor (.usage u none) s = s.sbp.outbox := rfl
  unfold offerRaw
  simp only [outboxRefuses_usage hheld hroom, Bool.false_eq_true, if_false, hbox, if_pos hroom]
  rfl

/-- The notice of `u` joins and its snapshot is queued. -/
def usageQueued (u : UnitNo) (s : State) : State := usageTaken u (usageJoined u s)

theorem getA_usageQueued (u v : UnitNo) (s : State) : getA v (usageQueued u s)
    = if u = v then { getA u s with snapshot := (getA u s).snapshot.map (Snapshot.move .unqueued .queued) } else getA v s :=
  getA_modA u v _ _

theorem usageQueued_unqueued (u v : UnitNo) (s : State) :
    unqueued (getA v (usageQueued u s)) = true ↔ unqueued (getA v s) = true ∧ v ≠ u := by
  rw [getA_usageQueued]
  by_cases huv : u = v
  · subst huv
    rw [if_pos rfl]
    unfold unqueued
    cases (getA u s).snapshot with
    | none => simp
    | some p => by_cases hn : p.notice = .unqueued <;> simp [Snapshot.move, hn]
  · rw [if_neg huv]
    simp [Ne.symm huv]

theorem unqueued_iff {a : Account} : unqueued a = true ↔ ∃ p, a.snapshot = some p ∧ p.notice = .unqueued := by
  unfold unqueued
  cases a.snapshot <;> simp

/-! ### A run of pacing -/

/-- The notices of the units `l` have joined the outbox in that order, and the pointer stands at the last of them (R145). -/
structure PaceTakes (l : List UnitNo) (s t : State) : Prop where
  ut       : t.ut = s.ut
  alarms   : t.alarms = s.alarms
  paceDue  : t.ucb.paceDue = s.ucb.paceDue
  out      : t.ucb.out = s.ucb.out + l.length
  pacePtr  : t.ucb.pacePtr = l.getLast?.getD s.ucb.pacePtr
  contents : ∀ u, (getA u t).snapshot.map Snapshot.contents = (getA u s).snapshot.map Snapshot.contents
  were     : ∀ u ∈ l, unqueued (getA u s) = true
  kept     : ∀ u, u ∉ l → getA u t = getA u s
  queued   : ∀ u ∈ l, ∃ p, (getA u t).snapshot = some p ∧ p.notice = .queued
  usages   : usageBodies t = usageBodies s ++ l.map (fun u => .usage u none)

theorem PaceTakes.nil (s : State) : PaceTakes [] s s where
  ut := rfl
  alarms := rfl
  paceDue := rfl
  out := rfl
  pacePtr := rfl
  contents _ := rfl
  were u hu := by cases hu
  kept _ _ := rfl
  queued u hu := by cases hu
  usages := by simp

theorem PaceTakes.cons {l : List UnitNo} (hu : unqueued (getA u s) = true) (h : PaceTakes l (usageQueued u s) t) :
    PaceTakes (u :: l) s t := by
  obtain ⟨p, hp, hn⟩ := unqueued_iff.mp hu
  have r : OnlyReports s (usageQueued u s) := (outbox_reports _ _ s).trans (usageTaken_reports u (usageJoined u s))
  have hwere : ∀ v ∈ l, unqueued (getA v s) = true ∧ v ≠ u := fun v hv => (usageQueued_unqueued u v s).mp (h.were v hv)
  have hul : u ∉ l := fun hmem => (hwere u hmem).2 rfl
  exact {
    ut := h.ut
    alarms := h.alarms
    paceDue := h.paceDue
    out := by
      rw [h.out, List.length_cons]
      show s.ucb.out + 1 + l.length = _
      omega
    pacePtr := by
      rw [h.pacePtr, List.getLast?_cons]
      rfl
    contents := fun v => (h.contents v).trans (r.snapshot v)
    were := fun v hv => (List.mem_cons.mp hv).elim (fun he => he ▸ hu) fun hv => (hwere v hv).1
    kept := fun v hv => by
      obtain ⟨hvu, hvl⟩ := List.ne_and_not_mem_of_not_mem_cons hv
      rw [h.kept v hvl, getA_usageQueued, if_neg hvu.symm]
    queued := fun v hv => by
      rcases List.mem_cons.mp hv with rfl | hv
      · rw [h.kept v hul, getA_usageQueued, if_pos rfl, hp]
        exact ⟨_, rfl, by simp [Snapshot.move, hn]⟩
      · exact h.queued v hv
    usages := by
      have hjoined : usageBodies (usageQueued u s) = usageBodies s ++ [.usage u none] := by
        show ((insertNotice ⟨s.sbp.nextRef, .usage u none⟩ s.sbp.outbox).filter _).map _ = _
        rw [insertNotice_usages rfl, List.map_append]
        rfl
      rw [h.usages, hjoined]
      simp }

theorem PaceTakes.unqueued_iff {l : List UnitNo} (h : PaceTakes l s t) (u : UnitNo) :
    unqueued (getA u t) = true ↔ unqueued (getA u s) = true ∧ u ∉ l := by
  by_cases hu : u ∈ l
  · obtain ⟨p, hp, hn⟩ := h.queued u hu
    simp [unqueued, hp, hn, hu]
  · rw [h.kept u hu]
    simp [hu]

/-- The units whose snapshots wait, in ring order from the pacing pointer (R145). -/
def waitingRing (s : State) : List UnitNo := (ringAfter s.ucb.pacePtr).filter (fun u => unqueued (getA u s))

theorem waitingRing_of_none (h : nextSnapshot s = none) : waitingRing s = [] :=
  List.filter_eq_nil_iff.mpr fun u hu => List.find?_eq_none.mp h u hu

/-- Once the first waiting unit has been taken, the others wait in the same order. -/
theorem waitingRing_of_some (h : nextSnapshot s = some u) : unqueued (getA u s) = true
    ∧ waitingRing s = u :: waitingRing (usageQueued u s) := by
  obtain ⟨hu, a, b, hsplit, hbefore⟩ := List.find?_eq_some_iff_append.mp h
  have hnodup := ringAfter_nodup s.ucb.pacePtr
  rw [hsplit] at hnodup
  have hub : u ∉ b := (List.nodup_cons.mp (List.nodup_append.mp hnodup).2.1).1
  have hold : waitingRing s = u :: b.filter (fun v => unqueued (getA v s)) := by
    have hnone : a.filter (fun v => unqueued (getA v s)) = [] :=
      List.filter_eq_nil_iff.mpr fun v hv => by simpa using hbefore v hv
    rw [waitingRing, hsplit, List.filter_append, hnone, List.filter_cons, if_pos hu]
    rfl
  have hnew : waitingRing (usageQueued u s) = b.filter (fun v => unqueued (getA v s)) := by
    show (ringAfter u).filter _ = _
    rw [ringAfter_turned hsplit, List.filter_append, List.filter_append]
    have hsame : b.filter (fun v => unqueued (getA v (usageQueued u s))) = b.filter (fun v => unqueued (getA v s)) :=
      List.filter_congr fun v hv => by
        rw [Bool.eq_iff_iff, usageQueued_unqueued]
        exact and_iff_left fun he => hub (he ▸ hv)
    have hnone : a.filter (fun v => unqueued (getA v (usageQueued u s))) = [] :=
      List.filter_eq_nil_iff.mpr fun v hv hw => by
        have := ((usageQueued_unqueued u v s).mp hw).1
        have hb := hbefore v hv
        simp [this] at hb
    have hself : [u].filter (fun v => unqueued (getA v (usageQueued u s))) = [] :=
      List.filter_eq_nil_iff.mpr fun v hv hw => ((usageQueued_unqueued u v s).mp hw).2 (List.mem_singleton.mp hv)
    rw [hsame, hnone, hself]
    simp
  exact ⟨hu, by rw [hold, hnew]⟩

/-- A run with room takes the first waiting units until four notices are out (R145). -/
theorem paceLoop_takes (fuel : Nat) (s : State) (hfuel : 4 ≤ s.ucb.out + fuel) (hheld : usageHeld s.sbp.outbox ≤ s.ucb.out)
    (hroom : s.sbp.outbox.length + 4 ≤ 32 + s.ucb.out) : PaceTakes ((waitingRing s).take (4 - s.ucb.out)) s (paceLoop fuel s) := by
  induction fuel generalizing s with
  | zero =>
    rw [show 4 - s.ucb.out = 0 by omega]
    exact .nil s
  | succ fuel ih =>
    unfold paceLoop
    by_cases hout : s.ucb.out < 4
    · rw [if_pos hout]
      cases hnext : nextSnapshot s with
      | none =>
        rw [waitingRing_of_none hnext, List.take_nil]
        exact .nil s
      | some u =>
        obtain ⟨hu, hring⟩ := waitingRing_of_some hnext
        have hrefuses := outboxRefuses_usage (u := u) (s := s) (by omega) (by omega)
        have hjoin := offerRaw_usage (u := u) (s := s) (by omega) (by omega)
        simp only [hrefuses, Bool.false_eq_true, if_false, hjoin]
        show PaceTakes _ s (paceLoop fuel (usageQueued u s))
        have hout' : (usageQueued u s).ucb.out = s.ucb.out + 1 := rfl
        have hlen' : (usageQueued u s).sbp.outbox.length = s.sbp.outbox.length + 1 := insertNotice_length _ _
        have hheld' : usageHeld (usageQueued u s).sbp.outbox = usageHeld s.sbp.outbox + 1 := by
          show ((insertNotice _ s.sbp.outbox).filter _).length = _
          rw [insertNotice_usages rfl, List.length_append]
          rfl
        rw [hring, show 4 - s.ucb.out = (4 - (usageQueued u s).ucb.out) + 1 by omega, List.take_succ_cons]
        exact .cons hu (ih _ (by omega) (by omega) (by omega))
    · rw [if_neg hout, show 4 - s.ucb.out = 0 by omega]
      exact .nil s

theorem overflowNotice_of_alarms {before : State} (h : s.alarms = before.alarms) : overflowNotice before s = s := by
  unfold overflowNotice
  rw [getK_congr h]
  cases (getK .outboxOverflow before).raised <;> simp

end

/-- Settles O36: the run of pacing, from a state whose due mark is taken down. -/
theorem pacingQueuesUpToFour : Obligations.PacingQueuesUpToFour := by
  unfold Obligations.PacingQueuesUpToFour
  intro s hheld
  refine ⟨fun hdue => ?idle, fun hdue hout husage hroom => ?run⟩
  case idle =>
    have hstep : pacingStep s = s := by simp [pacingStep, hdue]
    exact (unlessHeld_of_not_held hheld _).trans (by rw [hstep])
  case run =>
    let v : State := { s with ucb := { s.ucb with paceDue := false } }
    have h : PaceTakes ((waitingRing v).take (4 - v.ucb.out)) v (paceLoop 4 v) :=
      paceLoop_takes 4 v (by omega) husage (by
        have : s.sbp.outbox.length + 4 ≤ 32 := hroom
        show s.sbp.outbox.length + 4 ≤ 32 + s.ucb.out
        omega)
    have hstep : pacingStep s = paceLoop 4 v := by
      rw [pacingStep, if_pos hdue]
      exact overflowNotice_of_alarms h.alarms
    have hring : (List.finRange 64).map (fun i => s.ucb.pacePtr + 1 + i) = ringAfter s.ucb.pacePtr :=
      List.map_congr_left fun i _ => by rw [add_comm, ← add_assoc]
    simp only [hring]
    refine ⟨_, (unlessHeld_of_not_held hheld _).trans (by rw [hstep]), h.ut, h.alarms, h.paceDue, h.out, h.pacePtr, ?_, h.contents,
      h.unqueued_iff, h.queued, h.usages⟩
    by_cases hmany : 4 - s.ucb.out ≤ (waitingRing v).length
    · left
      rw [h.out, List.length_take, Nat.min_eq_left hmany]
      show s.ucb.out + (4 - s.ucb.out) = 4
      omega
    · right
      intro u
      have hfew : (waitingRing v).length ≤ 4 - v.ucb.out := Nat.le_of_not_le hmany
      rw [List.take_of_length_le hfew] at h
      rw [← Bool.not_eq_true, h.unqueued_iff]
      rintro ⟨hu, hnot⟩
      exact hnot (List.mem_filter.mpr ⟨mem_ringAfter _ u, hu⟩)

end Sys2Proof.Machine

/-!
PROOFS. The search: its steps, its closing offers, its two verdicts without a condemnation, and the removal of a record from it
(O33); what a dark sample does in WATCH (O29).
-/
namespace Sys2Proof.Machine

-- One proof after another, as in the tests: side by side, the proofs of one text hold more stacks than the check's memory has room for.
set_option Elab.async false

/-! ### The queued orders of group 1 (R8) -/

/-- The orders of group 1 in a queue. -/
def urgents (q : List QueuedOrder) : List PuOrder := (q.filter (fun x => orderGroup x.order == 1)).map (·.order)

theorem urgentOrders_eq (s : State) : urgentOrders s = urgents s.tli.queue := rfl

theorem urgentOrders_congr {s t : State} (h : t.tli.queue = s.tli.queue) : urgentOrders t = urgentOrders s := by
  rw [urgentOrders_eq, h, urgentOrders_eq]

theorem orderGroup_pos (o : PuOrder) : 1 ≤ orderGroup o := by cases o <;> simp [orderGroup]

/-- An order of group 1 joins behind the others of its group. -/
theorem urgents_enqueue {x : QueuedOrder} (hx : orderGroup x.order = 1) (q : List QueuedOrder) :
    urgents (enqueue x q) = urgents q ++ [x.order] := by
  have hlow : ∀ y : QueuedOrder, (orderGroup y.order == 1 && decide (orderGroup y.order ≤ 1)) = (orderGroup y.order == 1) := fun y => by
    by_cases h : orderGroup y.order = 1 <;> simp [h]
  have hhigh : ∀ y : QueuedOrder, (orderGroup y.order == 1 && decide (1 < orderGroup y.order)) = false := fun y => by
    by_cases h : orderGroup y.order = 1 <;> simp [h]
  simp [urgents, enqueue, List.filter_append, List.filter_filter, hx, hlow, hhigh]

/-- An order of another group does not stand among them. -/
theorem urgents_enqueue_other {x : QueuedOrder} (hx : orderGroup x.order ≠ 1) (q : List QueuedOrder) :
    urgents (enqueue x q) = urgents q := by
  have hpos := orderGroup_pos x.order
  have hlow : ∀ y : QueuedOrder,
      (orderGroup y.order == 1 && decide (orderGroup y.order ≤ orderGroup x.order)) = (orderGroup y.order == 1) := fun y => by
    by_cases h : orderGroup y.order = 1 <;> simp [h, hpos]
  have hhigh : ∀ y : QueuedOrder, (orderGroup y.order == 1 && decide (orderGroup x.order < orderGroup y.order)) = false := fun y => by
    by_cases h : orderGroup y.order = 1
    · simp [h, Nat.pos_iff_ne_zero.mp hpos]
    · simp [h]
  simp [urgents, enqueue, List.filter_append, List.filter_filter, hx, hlow, hhigh]

theorem urgentOrders_enqueueAll {l : List QueuedOrder} (hl : ∀ x ∈ l, orderGroup x.order = 1) (s : State) :
    urgentOrders (enqueueAll l s) = urgentOrders s ++ l.map (·.order) := by
  show urgents (l.foldl (fun q x => enqueue x q) s.tli.queue) = urgents s.tli.queue ++ l.map (·.order)
  generalize s.tli.queue = q
  induction l generalizing q with
  | nil => simp
  | cons x l ih =>
    rw [List.foldl_cons, ih fun y hy => hl y (List.mem_cons_of_mem x hy), urgents_enqueue (hl x List.mem_cons_self)]
    simp

theorem markedOffer_orders (m : OfferMark) (l : List PuOrder) : (markedOffer m l).map (·.order) = l := by
  induction l with
  | nil => rfl
  | cons o l ih =>
    by_cases hl : l = []
    · subst hl; rfl
    · rw [markedOffer_cons m o hl, List.map_cons, ih]

/-- The orders of an offer are as urgent with their marks as without. -/
theorem markedOffer_urgent {m : OfferMark} {l : List PuOrder} (hl : ∀ o ∈ l, orderGroup o = 1) :
    ∀ x ∈ markedOffer m l, orderGroup x.order = 1 := fun x hx => hl _ (by
  rw [← markedOffer_orders m l]
  exact List.mem_map_of_mem hx)

/-- The last order of an offer bears the mark. -/
theorem markedOffer_last (m : OfferMark) {l : List PuOrder} (hl : l ≠ []) : ∃ x ∈ markedOffer m l, x.mark = m := by
  induction l with
  | nil => exact absurd rfl hl
  | cons o l ih =>
    by_cases h : l = []
    · subst h
      exact ⟨⟨o, .lm, m⟩, by simp [markedOffer], rfl⟩
    · obtain ⟨x, hx, hm⟩ := ih h
      exact ⟨x, by rw [markedOffer_cons m o h]; exact List.mem_cons_of_mem _ hx, hm⟩

theorem urgentOrders_markedOffer {m : OfferMark} {l : List PuOrder} (hl : ∀ o ∈ l, orderGroup o = 1) (s : State) :
    urgentOrders (enqueueAll (markedOffer m l) s) = urgentOrders s ++ l := by
  rw [urgentOrders_enqueueAll (markedOffer_urgent hl), markedOffer_orders]

/-! ### A step (R10, R119) -/

section
variable {k : StepKind} {s : State}

theorem stepOrders_urgent (k : StepKind) (m : Isolation) : ∀ o ∈ stepOrders k m, orderGroup o = 1 := by
  cases k <;> simp [stepOrders, orderGroup]

theorem offerStep_taken (h : stepOrders k s.lm.iso ≠ []) (hroom : s.tli.queue.length + (stepOrders k s.lm.iso).length ≤ 64) :
    offerStep k s = modIso (fun m => { m with step := .toCarry, stepKind := k, stepDue := false,
                                              stepClears := if k = .speak then m.speak else [] })
      (stepTaken k (enqueueAll (markedOffer .stepEnd (stepOrders k s.lm.iso)) s)) := by
  unfold offerStep
  simp only
  rw [if_neg h, if_pos ((queueHasRoom_iff _ _).mpr hroom)]

theorem offerStep_waits (h : stepOrders k s.lm.iso ≠ []) (hfull : 64 < s.tli.queue.length + (stepOrders k s.lm.iso).length) :
    offerStep k s = modIso (fun m => { m with step := .waiting, stepKind := k, stepDue := false }) s := by
  unfold offerStep
  simp only
  rw [if_neg h, if_neg (by rw [queueHasRoom_iff]; omega)]

/-- A step that is taken puts its orders behind those of its group. -/
theorem offerStep_taken_writes (h : stepOrders k s.lm.iso ≠ [])
    (hroom : s.tli.queue.length + (stepOrders k s.lm.iso).length ≤ 64) :
    urgentOrders (offerStep k s) = urgentOrders s ++ stepOrders k s.lm.iso ∧ (offerStep k s).lm.iso.step = .toCarry := by
  refine ⟨?_, by rw [offerStep_taken h hroom]; rfl⟩
  rw [← urgentOrders_markedOffer (m := .stepEnd) (stepOrders_urgent k s.lm.iso) s]
  refine urgentOrders_congr ?_
  rw [offerStep_taken h hroom, modIso_tli, stepTaken_frame]

theorem offerStep_waits_writes (h : stepOrders k s.lm.iso ≠ [])
    (hfull : 64 < s.tli.queue.length + (stepOrders k s.lm.iso).length) : (offerStep k s).tli = s.tli ∧ (offerStep k s).ut = s.ut
      ∧ (offerStep k s).lm.iso.step = .waiting ∧ (offerStep k s).lm.iso.stepDue = false := by
  rw [offerStep_waits h hfull]
  exact ⟨rfl, rfl, rfl, rfl⟩

theorem stepTaken_lists (k : StepKind) (s : State) : ∃ l, (stepTaken k s).lm.iso = { s.lm.iso with hushedSet := l }
    ∧ (k ≠ .confirm → l = s.lm.iso.hushedSet) := by
  cases k with
  | confirm => exact ⟨_, rfl, fun h => absurd rfl h⟩
  | speak => exact ⟨_, rfl, fun _ => rfl⟩
  | hush =>
    refine ⟨s.lm.iso.hushedSet, ?_, fun _ => rfl⟩
    show (s.lm.iso.hush.foldl (fun t u => modU u (fun r => { r with hush := true }) t) s).lm.iso = s.lm.iso
    rw [foldl_modU_frame]

/-- Whatever becomes of an offered step, the machine keeps its phase, its counts and its lists; its hushed set changes by CONFIRM alone. -/
theorem offerStep_keeps (k : StepKind) (s : State) :
    let m := (offerStep k s).lm.iso
    m.phase = s.lm.iso.phase ∧ m.litRun = s.lm.iso.litRun ∧ m.countFrom = s.lm.iso.countFrom ∧ m.cand = s.lm.iso.cand
      ∧ m.speak = s.lm.iso.speak ∧ m.hush = s.lm.iso.hush := by
  obtain ⟨l, hl, -⟩ := stepTaken_lists k (enqueueAll (markedOffer .stepEnd (stepOrders k s.lm.iso)) s)
  have hiso : (enqueueAll (markedOffer .stepEnd (stepOrders k s.lm.iso)) s).lm.iso = s.lm.iso := rfl
  rw [hiso] at hl
  unfold offerStep
  simp only
  split
  · exact ⟨rfl, rfl, rfl, rfl, rfl, rfl⟩
  split
  · show let m := (stepTaken k (enqueueAll (markedOffer .stepEnd (stepOrders k s.lm.iso)) s)).lm.iso
      m.phase = s.lm.iso.phase ∧ m.litRun = s.lm.iso.litRun ∧ m.countFrom = s.lm.iso.countFrom ∧ m.cand = s.lm.iso.cand
        ∧ m.speak = s.lm.iso.speak ∧ m.hush = s.lm.iso.hush
    rw [hl]
    exact ⟨rfl, rfl, rfl, rfl, rfl, rfl⟩
  · exact ⟨rfl, rfl, rfl, rfl, rfl, rfl⟩

theorem offerStep_speak_ut (s : State) : (offerStep .speak s).ut = s.ut := (offerStep_speak_search s).ut

end

/-! ### Closing offers (R119) -/

/-- A closing offer that is taken. -/
def closingJoined (o : ClosingOffer) (s : State) : State :=
  modIso (fun m => { m with closingOut := m.closingOut + 1 }) (enqueueAll (markedOffer (.closingEnd o.clears) o.orders) s)

section
variable {o : ClosingOffer} {l : List ClosingOffer} {s : State}

theorem offerClosings_taken (hroom : s.tli.queue.length + o.orders.length ≤ 64) :
    offerClosings (o :: l) s = offerClosings l (closingJoined o s) := by
  rw [offerClosings, if_pos ((queueHasRoom_iff _ _).mpr hroom)]
  rfl

theorem offerClosings_waits (hfull : 64 < s.tli.queue.length + o.orders.length) :
    offerClosings (o :: l) s = modIso (fun m => { m with closing := o :: l, stepDue := false }) s := by
  rw [offerClosings, if_neg (by rw [queueHasRoom_iff]; omega)]

theorem closingJoined_length : (closingJoined o s).tli.queue.length = s.tli.queue.length + o.orders.length := by
  show (enqueueAll _ s).tli.queue.length = _
  rw [enqueueAll_length, markedOffer_length]

theorem closingJoined_urgent (ho : ∀ x ∈ o.orders, orderGroup x = 1) :
    urgentOrders (closingJoined o s) = urgentOrders s ++ o.orders := urgentOrders_markedOffer ho s

theorem closingJoined_marked (ho : o.orders ≠ []) : ∃ q ∈ (closingJoined o s).tli.queue, q.mark = .closingEnd o.clears := by
  obtain ⟨q, hq, hm⟩ := markedOffer_last (.closingEnd o.clears) ho
  exact ⟨q, mem_enqueueAll.mpr (.inl hq), hm⟩

/-- Counting from is held while a closing offer stands (R118). -/
def countHeld (s : State) : State := modIso (fun m => { m with countFrom := .held }) s

theorem addClosings_first (hl : l ≠ []) (h : s.lm.iso.closing = []) : addClosings l s = offerClosings l (countHeld s) := by
  rw [addClosings, if_neg hl, if_pos h]
  rfl

theorem addClosings_behind (hl : l ≠ []) (h : s.lm.iso.closing ≠ []) :
    addClosings l s = modIso (fun m => { m with countFrom := .held, closing := m.closing ++ l }) s := by
  rw [addClosings, if_neg hl, if_neg h]

theorem addClosings_one_taken (h : s.lm.iso.closing = []) (hroom : s.tli.queue.length + o.orders.length ≤ 64) :
    addClosings [o] s = modIso (fun m => { m with closing := [], stepDue := false }) (closingJoined o (countHeld s)) := by
  rw [addClosings_first (by simp) h, offerClosings_taken (s := countHeld s) hroom]
  rfl

theorem addClosings_one_waits (h : s.lm.iso.closing ≠ [] ∨ 64 < s.tli.queue.length + o.orders.length) :
    ∃ due, addClosings [o] s
      = modIso (fun m => { m with countFrom := .held, closing := m.closing ++ [o], stepDue := due }) s := by
  by_cases hc : s.lm.iso.closing = []
  · refine ⟨false, ?_⟩
    rw [addClosings_first (by simp) hc, offerClosings_waits (s := countHeld s) (h.resolve_left (absurd hc))]
    show modIso _ (modIso _ s) = modIso _ s
    unfold modIso
    simp only [hc, List.nil_append]
  · exact ⟨s.lm.iso.stepDue, addClosings_behind (by simp) hc⟩

/-- Closing offers touch no more of the machine than their own count, list and due mark. -/
theorem offerClosings_iso (l : List ClosingOffer) (s : State) : ∃ c n d,
    (offerClosings l s).lm.iso = { s.lm.iso with closing := c, closingOut := n, stepDue := d } := by
  induction l generalizing s with
  | nil => exact ⟨_, _, _, rfl⟩
  | cons o l ih =>
    unfold offerClosings
    split
    · obtain ⟨c, n, d, h⟩ := ih (closingJoined o s)
      exact ⟨c, n, d, h⟩
    · exact ⟨_, _, _, rfl⟩

theorem addClosings_iso (hl : l ≠ []) (s : State) : ∃ c n d,
    (addClosings l s).lm.iso = { s.lm.iso with countFrom := .held, closing := c, closingOut := n, stepDue := d } := by
  by_cases hc : s.lm.iso.closing = []
  · rw [addClosings_first hl hc]
    exact offerClosings_iso l (countHeld s)
  · rw [addClosings_behind hl hc]
    exact ⟨_, _, _, rfl⟩

theorem offerClosings_ut (l : List ClosingOffer) (s : State) : (offerClosings l s).ut = s.ut := (offerClosings_search l s).ut

theorem addClosings_ut (l : List ClosingOffer) (s : State) : (addClosings l s).ut = s.ut := (addClosings_search l s).ut

end

/-! ### The verdict UNLOCATED (R128) -/

/-- What the verdicts read of the state before them. -/
structure SameSearch (s v : State) : Prop where
  ut         : v.ut = s.ut
  tli        : v.tli = s.tli
  alarms     : v.alarms = s.alarms
  closing    : v.lm.iso.closing = s.lm.iso.closing
  closingOut : v.lm.iso.closingOut = s.lm.iso.closingOut
  countFrom  : v.lm.iso.countFrom = s.lm.iso.countFrom

/-- The machine as a verdict leaves it before its closing offers, the verdict's alarm raised (R127, R128). -/
def verdictHeld (k : AlarmKind) (c : HoldCause) (v : State) : State :=
  occur k none (modIso (fun m => { searchEnded m with phase := .holdoff, cause := c, holdoff := 240000 }) v)

theorem verdictHeld_iso (k : AlarmKind) (c : HoldCause) (v : State) :
    (verdictHeld k c v).lm.iso = { searchEnded v.lm.iso with phase := .holdoff, cause := c, holdoff := 240000 } := by
  rw [verdictHeld, (occur_reports _ _ _).lm]
  rfl

theorem verdictHeld_ut (k : AlarmKind) (c : HoldCause) (v : State) : (verdictHeld k c v).ut = v.ut := (occur_reports _ _ _).ut

theorem verdictHeld_tli (k : AlarmKind) (c : HoldCause) (v : State) : (verdictHeld k c v).tli = v.tli := (occur_reports _ _ _).tli

theorem verdictHeld_once {k : AlarmKind} {c : HoldCause} {s v : State} (hk : k ≠ .outboxOverflow) (h : v.alarms = s.alarms) :
    OccurredOnce k s (verdictHeld k c v) := (occurredOnce_occur hk).earlier (getK_congr h k)

theorem verdictUnlocated_eq (v : State) :
    verdictUnlocated v = addClosings [⟨[.speakAll], .all⟩] (verdictHeld .rogueUnlocated .unlocated v) := rfl

theorem unlocatedVerdict_verdictUnlocated {s v : State} (h : SameSearch s v) : UnlocatedVerdict s (verdictUnlocated v) := by
  let w := verdictHeld .rogueUnlocated .unlocated v
  have hiso : w.lm.iso = _ := verdictHeld_iso .rogueUnlocated .unlocated v
  have htli : w.tli = s.tli := (verdictHeld_tli _ _ _).trans h.tli
  have hclosing : w.lm.iso.closing = s.lm.iso.closing := by rw [hiso]; exact h.closing
  have hut : (addClosings [⟨[.speakAll], .all⟩] w).ut = s.ut := (addClosings_ut _ _).trans ((verdictHeld_ut _ _ _).trans h.ut)
  have honce : OccurredOnce .rogueUnlocated s (addClosings [⟨[.speakAll], .all⟩] w) :=
    (verdictHeld_once (by decide) h.alarms).later (getK_congr (addClosings_alarms _ _) _)
  rw [verdictUnlocated_eq]
  by_cases hroom : s.lm.iso.closing = [] ∧ s.tli.queue.length < 64
  · obtain ⟨hnone, hlt⟩ := hroom
    have heq := addClosings_one_taken (s := w) (o := ⟨[.speakAll], .all⟩) (hclosing.trans hnone)
      (by rw [htli]; simp only [List.length_singleton]; omega)
    have hurgent : urgentOrders (addClosings [⟨[.speakAll], .all⟩] w) = urgentOrders s ++ [.speakAll] := by
      rw [heq]
      refine (closingJoined_urgent (o := ⟨[.speakAll], .all⟩) (s := countHeld w) (by simp [orderGroup])).trans ?_
      rw [urgentOrders_congr (s := s) (t := countHeld w) (congrArg TreeLine.queue htli)]
    have hiso' : (addClosings [⟨[.speakAll], .all⟩] w).lm.iso
        = { w.lm.iso with countFrom := .held, closingOut := w.lm.iso.closingOut + 1, closing := [], stepDue := false } := by
      rw [heq]
      rfl
    refine ⟨by rw [hiso', hiso], by rw [hiso', hiso], by rw [hiso', hiso], by rw [hiso'], honce, hut, fun _ _ => ⟨hurgent, ?_, by rw [hiso'], ?_⟩,
      fun hor => ?_⟩
    · rw [heq]
      exact mem_enqueueAll.mpr (.inl (by simp [markedOffer]))
    · rw [hiso', hiso]
      exact congrArg (· + 1) h.closingOut
    · exact absurd hlt (Nat.not_lt.mpr (hor.resolve_left (absurd hnone)))
  · have hor : s.lm.iso.closing ≠ [] ∨ 64 ≤ s.tli.queue.length := by
      by_cases hnone : s.lm.iso.closing = []
      · exact .inr (Nat.not_lt.mp fun hlt => hroom ⟨hnone, hlt⟩)
      · exact .inl hnone
    obtain ⟨due, heq⟩ := addClosings_one_waits (s := w) (o := ⟨[.speakAll], .all⟩) (by
      rw [hclosing, htli]
      exact hor.imp_right fun hlen => by simp only [List.length_singleton]; omega)
    have hiso' : (addClosings [⟨[.speakAll], .all⟩] w).lm.iso
        = { w.lm.iso with countFrom := .held, closing := w.lm.iso.closing ++ [⟨[.speakAll], .all⟩], stepDue := due } := by
      rw [heq]
      rfl
    refine ⟨by rw [hiso', hiso], by rw [hiso', hiso], by rw [hiso', hiso], by rw [hiso'], honce, hut,
      fun hnone hlt => absurd ⟨hnone, hlt⟩ hroom, fun _ => ⟨?_, ?_⟩⟩
    · rw [heq]
      exact htli
    · rw [hiso', hclosing]

/-! ### Cleared hush flags (R119) -/

theorem foldl_modU_get (l : List UnitNo) (f : UnitRecord → UnitRecord) (hf : ∀ r, f (f r) = f r) (s : State) (u : UnitNo) :
    getU u (l.foldl (fun t u => modU u f t) s) = if u ∈ l then f (getU u s) else getU u s := by
  induction l generalizing s with
  | nil => simp
  | cons v l ih =>
    rw [List.foldl_cons, ih, getU_modU]
    by_cases huv : v = u
    · subst huv
      by_cases hl : v ∈ l <;> simp [hl, hf]
    · simp [huv, Ne.symm huv]

theorem getU_clearHush (c : ClearSet) (s : State) (u : UnitNo) :
    getU u (clearHush c s) = { getU u s with hush := (getU u s).hush && !c.covers u } := by
  cases c with
  | nothing => simp [clearHush, ClearSet.covers]
  | all => rw [clearHush, getU_mapU]; simp [ClearSet.covers]
  | units l =>
    rw [clearHush, foldl_modU_get l (fun r => { r with hush := false }) fun _ => rfl]
    by_cases hu : u ∈ l <;> simp [ClearSet.covers, hu]

theorem clearHush_frame (c : ClearSet) (s : State) : clearHush c s = { s with ut := (clearHush c s).ut } := by
  cases c with
  | nothing => rfl
  | all => rfl
  | units l => exact foldl_modU_frame l _ s

theorem foldl_clearHush_frame (l : List Clearing) (s : State) :
    l.foldl (fun t c => clearHush c.clears t) s = { s with ut := (l.foldl (fun t c => clearHush c.clears t) s).ut } := by
  induction l generalizing s with
  | nil => rfl
  | cons c l ih =>
    rw [List.foldl_cons, ih, clearHush_frame]

theorem getU_foldl_clearHush (l : List Clearing) (s : State) (u : UnitNo) :
    getU u (l.foldl (fun t c => clearHush c.clears t) s)
      = { getU u s with hush := (getU u s).hush && !l.any (fun c => c.clears.covers u) } := by
  induction l generalizing s with
  | nil => simp
  | cons c l ih =>
    rw [List.foldl_cons, ih, getU_clearHush]
    simp [Bool.and_assoc]

/-! ### The removal of a record from the search (R130) -/

theorem firstHalf_length (l : List UnitNo) : (firstHalf l).length = (l.length + 1) / 2 := by
  rw [firstHalf, List.length_take]
  omega

theorem firstHalf_ne_nil {l : List UnitNo} (hl : l ≠ []) : firstHalf l ≠ [] := by
  rw [← List.length_pos_iff_ne_nil] at hl ⊢
  rw [firstHalf_length]
  omega

section
variable {u : UnitNo} {s : State}

theorem isoRemove_confirm (h : s.lm.iso.phase = .confirm) : isoRemove u s = modIso (dropUnit u) s := by
  unfold isoRemove
  rw [h]

theorem isoRemove_holdoff (h : s.lm.iso.phase = .holdoff) : isoRemove u s = s := by
  unfold isoRemove
  rw [h]

theorem isoRemove_last (h : s.lm.iso.phase = .bisect) (hc : s.lm.iso.cand.filter (· ≠ u) = []) :
    isoRemove u s = verdictUnlocated (modIso (dropUnit u) s) := by
  unfold isoRemove
  rw [h]
  exact if_pos hc

theorem isoRemove_goesOn (h : s.lm.iso.phase = .bisect) (hc : s.lm.iso.cand.filter (· ≠ u) ≠ [])
    (hl : s.lm.iso.speak.filter (· ≠ u) ≠ [] ∨ s.lm.iso.speak = []) : isoRemove u s = modIso (dropUnit u) s := by
  unfold isoRemove
  rw [h]
  exact (if_neg hc).trans (if_pos hl)

/-- The first half of what is left speaks next (R130). -/
def speakRest (u : UnitNo) (s : State) : State :=
  modIso (fun m => { m with speak := firstHalf m.cand, hush := [], samples := 0, litSamples := 0 }) (modIso (dropUnit u) s)

theorem isoRemove_speaks (h : s.lm.iso.phase = .bisect) (hc : s.lm.iso.cand.filter (· ≠ u) ≠ [])
    (hl : s.lm.iso.speak.filter (· ≠ u) = []) (hs : s.lm.iso.speak ≠ []) : isoRemove u s
      = if s.lm.iso.step = .toCarry then modIso (fun m => { m with restep := true }) (speakRest u s) else offerStep .speak (speakRest u s) := by
  unfold isoRemove
  rw [h]
  exact (if_neg hc).trans (if_neg (by rintro (hne | he); exacts [hne hl, hs he]))

end

/-- Settles O33: the end of HOLDOFF, the clearings, a step and a closing offer made again, and the branches of `isoRemove`. -/
theorem searchOffersAndClears : Obligations.SearchOffersAndClears := by
  unfold Obligations.SearchOffersAndClears
  refine ⟨fun s hheld hphase hzero => ?holdoff, fun s hheld => ?cleared, fun s hheld hdue hwait hne => ?step,
    fun s o hheld hdue hwait hclosing ho => ?closing, fun u s => ?removal⟩
  case holdoff =>
    let v := modIso (fun m => { m with phase := .watch, litRun := 0, cause := .none }) s
    by_cases hcause : s.lm.iso.cause = .unenrolled
    · have hstep : holdoffStep s = addClosings [⟨[.speakAll], .nothing⟩] v := by
        simp only [holdoffStep, hphase, hzero, hcause, and_self, if_true]
        rfl
      obtain ⟨c, n, d, hiso⟩ := addClosings_iso (l := [⟨[.speakAll], .nothing⟩]) (by simp) v
      refine ⟨_, (unlessHeld_of_not_held hheld _).trans (by rw [hstep]), by rw [hiso]; rfl, by rw [hiso]; rfl, by rw [hiso]; rfl,
        addClosings_ut _ v, fun _ hnone hlt => ⟨?_, by rw [hiso]⟩, fun h => by rw [hcause] at h; cases h⟩
      rw [addClosings_one_taken (s := v) (o := ⟨[.speakAll], .nothing⟩) hnone hlt]
      exact closingJoined_urgent (o := ⟨[.speakAll], .nothing⟩) (s := countHeld v) (by simp [orderGroup])
    · have hstep : holdoffStep s
          = if s.lm.iso.closing = [] ∧ s.lm.iso.closingOut = 0 then modIso (fun m => { m with countFrom := .any }) v else v := by
        simp only [holdoffStep, hphase, hzero, and_self, if_true]
        cases hc : s.lm.iso.cause with
        | unenrolled => exact absurd hc hcause
        | none => rfl
        | unlocated => rfl
      refine ⟨_, (unlessHeld_of_not_held hheld _).trans (by rw [hstep]), ?_⟩
      by_cases hall : s.lm.iso.closing = [] ∧ s.lm.iso.closingOut = 0
      · rw [if_pos hall]
        exact ⟨rfl, rfl, rfl, rfl, fun h => absurd h hcause, fun _ => ⟨rfl, fun _ _ => rfl⟩⟩
      · rw [if_neg hall]
        exact ⟨rfl, rfl, rfl, rfl, fun h => absurd h hcause, fun _ => ⟨rfl, fun h1 h2 => absurd ⟨h1, h2⟩ hall⟩⟩
  case cleared =>
    have hframe := foldl_clearHush_frame s.lm.iso.clearings (modIso (fun m => { m with clearings := [] }) s)
    refine ⟨_, unlessHeld_of_not_held hheld _, ?_, ?_, ?_, fun u => ?_⟩
    · show (hushClearStep s).lm.iso.clearings = []
      rw [hushClearStep, hframe]
      rfl
    · show (hushClearStep s).tli = _
      rw [hushClearStep, hframe]
      rfl
    · show (hushClearStep s).sbp = _
      rw [hushClearStep, hframe]
      rfl
    · exact getU_foldl_clearHush _ _ _
  case step =>
    have hstep : stepReofferStep s = offerStep s.lm.iso.stepKind s := by
      simp [stepReofferStep, hdue, hwait]
    exact ⟨_, (unlessHeld_of_not_held hheld _).trans (by rw [hstep]), offerStep_taken_writes hne, offerStep_waits_writes hne⟩
  case closing =>
    have hstep : stepReofferStep s = offerClosings [o] s := by
      simp [stepReofferStep, hdue, hwait, hclosing]
    refine ⟨_, (unlessHeld_of_not_held hheld _).trans (by rw [hstep]), offerClosings_ut _ _, fun hroom => ?_, fun hfull => ?_⟩
    · rw [offerClosings_taken hroom]
      exact ⟨closingJoined_urgent ho, rfl, rfl⟩
    · rw [offerClosings_waits hfull]
      exact ⟨rfl, rfl⟩
  case removal =>
    intro m t c l
    refine ⟨fun h => ?_, fun h => ?_, fun hp hc hl hs => ?_, fun hp hc => ?_⟩
    · rcases h with h | h
      · exact isoRemove_of_watch h
      · exact isoRemove_holdoff h
    · rcases h with h | ⟨hp, hc, hl⟩
      · exact isoRemove_confirm h
      · exact isoRemove_goesOn hp hc hl
    · have heq : t = if s.lm.iso.step = .toCarry then modIso (fun m => { m with restep := true }) (speakRest u s)
          else offerStep .speak (speakRest u s) := isoRemove_speaks hp hc hl hs
      have horders : stepOrders .speak (speakRest u s).lm.iso = (c.take ((c.length + 1) / 2)).map .speakUnit := rfl
      have hlen : (stepOrders .speak (speakRest u s).lm.iso).length = (c.length + 1) / 2 := by
        rw [horders, List.length_map]
        exact firstHalf_length c
      have hne : stepOrders .speak (speakRest u s).lm.iso ≠ [] := by
        rw [horders]
        exact fun h => firstHalf_ne_nil hc (List.map_eq_nil_iff.mp h)
      by_cases hstep : s.lm.iso.step = .toCarry
      · rw [if_pos hstep] at heq
        rw [heq]
        exact ⟨hp, rfl, rfl, rfl, rfl, fun _ => ⟨rfl, hstep, rfl⟩, fun h => absurd hstep h, fun h => absurd hstep h⟩
      · rw [if_neg hstep] at heq
        obtain ⟨hphase, -, -, hcand, hspeak, hhush⟩ := offerStep_keeps .speak (speakRest u s)
        rw [heq]
        refine ⟨hphase.trans hp, hcand, hspeak, hhush, offerStep_speak_ut _, fun h => absurd h hstep, fun _ hroom => ?_, fun _ hfull => ?_⟩
        · exact offerStep_taken_writes hne (by rw [hlen]; exact hroom)
        · obtain ⟨htli, -, hwaits, -⟩ := offerStep_waits_writes hne (by rw [hlen]; exact hfull)
          exact ⟨htli, hwaits⟩
    · have heq : t = verdictUnlocated (modIso (dropUnit u) s) := isoRemove_last hp hc
      rw [heq]
      exact unlocatedVerdict_verdictUnlocated ⟨rfl, rfl, rfl, rfl, rfl, rfl⟩

end Sys2Proof.Machine

/-!
PROOFS. Light samples: what a dark sample does in WATCH (O29), tail events (O31), and the fourth of them (O32).
-/
namespace Sys2Proof.Machine

-- One proof after another, as in the tests: side by side, the proofs of one text hold more stacks than the check's memory has room for.
set_option Elab.async false

/-! ### Readings (R17, R111) -/

theorem lt_foldl_max (a b : Nat) (l : List Nat) : a < l.foldl max b ↔ a < b ∨ ∃ x ∈ l, a < x := by
  induction l generalizing b with
  | nil => simp
  | cons x l ih =>
    rw [List.foldl_cons, ih, lt_max_iff]
    simp [or_assoc]

/-- A stretch is lit when its highest reading is. -/
theorem isLit_peakLevel (readings : List Nat) (s : State) : isLit (peakLevel readings) s = true ↔ LitOver readings s := by
  simp [isLit, peakLevel, lt_foldl_max, readAs, LitOver]

/-! ### What a judgement leaves of the dark sample itself (R70, R111) -/

/-- The last dark judgement and the plans stand, and so do the Burst Meter and what has gone to the backhaul. -/
structure KeepsSample (s t : State) : Prop where
  lastDark : t.lm.lastDark = s.lm.lastDark
  gs       : t.gs = s.gs
  bm       : t.bm = s.bm
  upstream : t.tli.upstream = s.tli.upstream

section
variable {u : UnitNo} {s t v : State}

theorem KeepsSample.trans (h : KeepsSample s t) (k : KeepsSample t v) : KeepsSample s v :=
  ⟨k.lastDark.trans h.lastDark, k.gs.trans h.gs, k.bm.trans h.bm, k.upstream.trans h.upstream⟩

theorem KeepsSample.refl (s : State) : KeepsSample s s := ⟨rfl, rfl, rfl, rfl⟩

theorem modIso_keepsSample (f : Isolation → Isolation) (s : State) : KeepsSample s (modIso f s) := ⟨rfl, rfl, rfl, rfl⟩

theorem mapU_keepsSample (f : UnitRecord → UnitRecord) (s : State) : KeepsSample s (mapU f s) := ⟨rfl, rfl, rfl, rfl⟩

theorem OnlySearch.keepsSample (h : OnlySearch s t) : KeepsSample s t := ⟨by rw [h.lm], h.gs, h.bm, by rw [h.tli]⟩

theorem OnlyReports.keepsSample (h : OnlyReports s t) : KeepsSample s t := h.search.keepsSample

theorem offerStep_keepsSample (k : StepKind) (s : State) : KeepsSample s (offerStep k s) := by
  have htaken : ∀ w : State, (stepTaken k w).lm.lastDark = w.lm.lastDark := fun w => by
    cases k with
    | confirm => rfl
    | speak => rfl
    | hush =>
      show (w.lm.iso.hush.foldl (fun t u => modU u (fun r => { r with hush := true }) t) w).lm.lastDark = _
      rw [foldl_modU_frame]
  unfold offerStep
  simp only
  split
  · exact ⟨rfl, rfl, rfl, rfl⟩
  split
  · exact ⟨htaken _, by rw [modIso_gs, stepTaken_frame]; rfl, by rw [modIso_bm, stepTaken_frame]; rfl,
      by rw [modIso_tli, stepTaken_frame, enqueueAll_frame]; rfl⟩
  · exact ⟨rfl, rfl, rfl, rfl⟩

theorem closeBilling_keepsSample (u : UnitNo) (s : State) : KeepsSample s (closeBilling u s) :=
  ⟨by rw [closeBilling_lm], (closeBilling_keepsView u s).gs, (closeBilling_keepsView u s).bm, by rw [closeBilling_tli]⟩

theorem retire_keepsSample (u : UnitNo) (s : State) : KeepsSample s (retire u s) := by
  rw [retire_eq]
  exact KeepsSample.trans (t := leftTree u s) ⟨rfl, rfl, rfl, rfl⟩ ((isoRemove_search u _).keepsSample.trans (closeBilling_keepsSample u _))

theorem offerDrop_keepsSample (p : Producer) (u : UnitNo) (s : State) : KeepsSample s (offerDrop p u s) := by
  rcases offerDrop_cases p u s with ⟨-, h⟩ | ⟨-, h⟩ <;> rw [h] <;> exact ⟨rfl, rfl, rfl, rfl⟩

theorem directFree_keepsSample (u : UnitNo) (s : State) : KeepsSample s (directFree u s) := by
  refine KeepsSample.trans ?_ (directFree_reports u s).keepsSample
  unfold freedSilently
  split
  · have hwithdrawn : KeepsSample s (withdrawOrders .ec (isAssignFor u) (freedDirect u s)).1 := ⟨rfl, rfl, rfl, rfl⟩
    exact hwithdrawn.trans ((offerDrop_keepsSample _ _ _).trans (isoRemove_search u _).keepsSample)
  · exact ⟨rfl, rfl, rfl, rfl⟩

theorem endService_keepsSample (u : UnitNo) (s : State) : KeepsSample s (endService u s) := by
  unfold endService
  split
  · exact retire_keepsSample u s
  split
  · exact directFree_keepsSample u s
  · exact .refl s

theorem condemnRecord_keepsSample (u : UnitNo) (x : Serial) (why : BarReason) (s : State) :
    KeepsSample s (condemnRecord u x why s) := by
  have hended : KeepsSample s (endService u (modU u (fun r => { r with barSent := true }) s)) :=
    KeepsSample.trans (t := modU u (fun r => { r with barSent := true }) s) ⟨rfl, rfl, rfl, rfl⟩ (endService_keepsSample u _)
  have hbar : ∀ w : State, KeepsSample w (ownBar x why w) := fun w =>
    KeepsSample.trans (t := addBar ⟨x, w.sc.station, why⟩ w) (by rw [addBar_eq]; exact ⟨rfl, rfl, rfl, rfl⟩)
      (offerNotice_reports _ _).keepsSample
  exact hended.trans ((hbar _).trans (occur_reports _ _ _).keepsSample)

theorem verdictCondemned_keepsSample (u : UnitNo) (s : State) : KeepsSample s (verdictCondemned u s) := by
  unfold verdictCondemned
  simp only
  split
  · exact ⟨rfl, rfl, rfl, rfl⟩
  next x hx =>
    exact ((modIso_keepsSample _ s).trans (condemnRecord_keepsSample u x .rogue _)).trans (addClosings_search _ _).keepsSample

theorem verdictUnenrolled_keepsSample (s : State) : KeepsSample s (verdictUnenrolled s) :=
  (((modIso_keepsSample _ s).trans (occur_reports _ _ _).keepsSample).trans (mapU_keepsSample _ _)).trans
    (addClosings_search _ _).keepsSample

theorem speakHalf_keepsSample (s : State) : KeepsSample s (speakHalf s) :=
  (modIso_keepsSample _ s).trans (offerStep_keepsSample .speak _)

theorem testResult_keepsSample (s : State) : KeepsSample s (testResult s) := by
  have hidle : KeepsSample s (modIso (fun m => { m with step := .idle }) s) := ⟨rfl, rfl, rfl, rfl⟩
  unfold testResult
  simp only
  split
  · unfold confirmResult
    split
    · exact hidle.trans (verdictUnlocated_search _).keepsSample
    · simp only
      split
      · exact hidle.trans (verdictUnenrolled_keepsSample _)
      · exact hidle.trans ((modIso_keepsSample _ _).trans (speakHalf_keepsSample _))
  · split
    · unfold bisectLit
      split
      · exact hidle.trans (verdictCondemned_keepsSample _ _)
      · exact hidle.trans ((modIso_keepsSample _ _).trans (offerStep_keepsSample _ _))
    · unfold bisectClear
      simp only
      split
      · exact hidle.trans ((modIso_keepsSample _ _).trans (verdictUnenrolled_keepsSample _))
      · exact hidle.trans ((modIso_keepsSample _ _).trans (speakHalf_keepsSample _))
  · exact .refl s
  · exact .refl s

theorem testSample_keepsSample (n : Nat) (lit : Bool) (s : State) : KeepsSample s (testSample n lit s) := by
  unfold testSample
  simp only
  split
  · split
    · exact (modIso_keepsSample _ s).trans (testResult_keepsSample _)
    · exact ⟨rfl, rfl, rfl, rfl⟩
  · exact .refl s

end

/-! ### A dark sample (R111) -/

/-- The sample has become the last dark judgement, and its arrival round has ended. -/
def sampleTaken (n : Nat) (lit : Bool) (s : State) : State :=
  { s with lm := { s.lm with lastDark := lit }, gs := { s.gs with plans := s.gs.plans.filter (fun p => p.round ≠ n) } }

theorem exec_darkSample {n : Nat} {readings : List Nat} {s : State} (hheld : s.held = false) : exec (.darkSample n readings) s
    = .next (judgeDark n (isLit (peakLevel readings) s) (sampleTaken n (isLit (peakLevel readings) s) s)) :=
  unlessHeld_of_not_held hheld _

section
variable {n : Nat} {lit : Bool} {s : State}

theorem judgeDark_watch (h : s.lm.iso.phase = .watch) : judgeDark n lit s = watchSample n lit s := by
  unfold judgeDark
  rw [h]

theorem judgeDark_holdoff (h : s.lm.iso.phase = .holdoff) : judgeDark n lit s = s := by
  unfold judgeDark
  rw [h]

theorem judgeDark_test (h : s.lm.iso.phase = .confirm ∨ s.lm.iso.phase = .bisect) : judgeDark n lit s = testSample n lit s := by
  unfold judgeDark
  rcases h with h | h <;> rw [h]

/-- The sample counts (R118). -/
theorem watchCounts_iff : watchCounts n s.lm.iso.countFrom = true
    ↔ s.lm.iso.countFrom = .any ∨ ∃ c, s.lm.iso.countFrom = .fromRound c ∧ (n + 65536 - c % 65536) % 65536 < 32768 := by
  cases hc : s.lm.iso.countFrom with
  | any => simp [watchCounts]
  | held => simp [watchCounts]
  | fromRound c =>
    rw [watchCounts, decide_eq_true_iff]
    simp [roundsFrom]

theorem watchSample_idle (h : s.sc.phase ≠ .serving) : watchSample n lit s = modIso (fun m => { m with litRun := 0 }) s := if_pos h

theorem watchSample_uncounted (h : s.sc.phase = .serving) (hc : ¬watchCounts n s.lm.iso.countFrom = true) : watchSample n lit s = s := by
  simp [watchSample, h, hc]

/-- A sample that counts has been counted in the lit run (R118). -/
def runCounted (lit : Bool) (s : State) : State :=
  modIso (fun m => { m with countFrom := .any, litRun := if lit then m.litRun + 1 else 0 }) s

theorem watchSample_counted (h : s.sc.phase = .serving) (hc : watchCounts n s.lm.iso.countFrom = true) : watchSample n lit s
    = if lit && decide ((inForce s).litCount ≤ (runCounted lit s).lm.iso.litRun) then enterConfirm (runCounted lit s)
      else runCounted lit s := by
  simp only [watchSample, h, hc, ne_eq, not_true_eq_false, if_false, if_true]
  rfl

theorem watchSample_keepsSample (n : Nat) (lit : Bool) (s : State) : KeepsSample s (watchSample n lit s) := by
  by_cases hserving : s.sc.phase = .serving
  case neg => rw [watchSample_idle hserving]; exact modIso_keepsSample _ s
  by_cases hc : watchCounts n s.lm.iso.countFrom = true
  case neg => rw [watchSample_uncounted hserving hc]; exact .refl s
  have hcounted : KeepsSample s (runCounted lit s) := modIso_keepsSample _ s
  rw [watchSample_counted hserving hc]
  split
  · exact hcounted.trans ((modIso_keepsSample _ _).trans (offerStep_keepsSample .confirm _))
  · exact hcounted

theorem judgeDark_keepsSample (n : Nat) (lit : Bool) (s : State) : KeepsSample s (judgeDark n lit s) := by
  unfold judgeDark
  split
  · exact watchSample_keepsSample n lit s
  · exact testSample_keepsSample n lit s
  · exact testSample_keepsSample n lit s
  · exact .refl s

theorem getU_stepTaken_confirm (u : UnitNo) (s : State) :
    getU u (stepTaken .confirm s) = if onTree (getU u s) then { getU u s with hush := true } else getU u s :=
  getU_mapU u (fun r => if onTree r then { r with hush := true } else r) s

end

/-- Settles O29: the sample's own writes by `KeepsSample`, and one equation of `watchSample` for each clause. -/
theorem darkSampleDrivesTheSearch : Obligations.DarkSampleDrivesTheSearch := by
  unfold Obligations.DarkSampleDrivesTheSearch
  intro n readings s hheld counts
  have hlit : isLit (peakLevel readings) s = true ↔ LitOver readings s := isLit_peakLevel readings s
  generalize isLit (peakLevel readings) s = lit at hlit
  let v := sampleTaken n lit s
  have hcounts : watchCounts n v.lm.iso.countFrom = true ↔ counts := watchCounts_iff (s := s)
  have hexec : exec (.darkSample n readings) s = .next (judgeDark n lit v) := by
    rw [exec_darkSample hheld]
    have : isLit (peakLevel readings) s = lit := by rw [Bool.eq_iff_iff, hlit, isLit_peakLevel]
    rw [this]
  have keeps := judgeDark_keepsSample n lit v
  refine ⟨_, hexec, ?_, ?_, fun hphase hserving hno => ?_, fun hphase hserving hc => ?_, fun hphase hnot => ?_, fun hphase => ?_⟩
  · rw [keeps.lastDark]
    exact hlit
  · rw [keeps.gs]
    rfl
  · rw [judgeDark_watch (s := v) hphase, watchSample_uncounted (s := v) hserving (mt hcounts.mp hno)]
    exact ⟨rfl, rfl, rfl⟩
  · have hstep := watchSample_counted (n := n) (lit := lit) (s := v) hserving (hcounts.mpr hc)
    rw [judgeDark_watch (s := v) hphase, hstep]
    by_cases hl : LitOver readings s
    · obtain rfl : lit = true := hlit.mpr hl
      by_cases hrun : (inForce s).litCount ≤ s.lm.iso.litRun + 1
      · have htrue : (true && decide ((inForce v).litCount ≤ (runCounted true v).lm.iso.litRun)) = true := decide_eq_true hrun
        rw [if_pos htrue]
        let w := modIso (fun m => { searchEnded m with phase := .confirm }) (runCounted true v)
        have horders : stepOrders .confirm w.lm.iso = [.hushAll] := rfl
        have hne : stepOrders .confirm w.lm.iso ≠ [] := by rw [horders]; simp
        obtain ⟨hphase', hrun', hcount', -⟩ := offerStep_keeps .confirm w
        show _ ∧ _
        refine ⟨hcount', fun h => absurd hl h, fun _ hlt => absurd hrun (Nat.not_le.mpr hlt), fun _ _ =>
          ⟨hphase', hrun', fun hlt => ?_, fun hfull => ?_⟩⟩
        · have hroom : w.tli.queue.length + (stepOrders .confirm w.lm.iso).length ≤ 64 := hlt
          obtain ⟨hurgent, hcarry⟩ := offerStep_taken_writes hne hroom
          have heq := offerStep_taken hne hroom
          refine ⟨hurgent, hcarry, ?_, fun u => ?_⟩
          · show (offerStep .confirm w).lm.iso.hushedSet = _
            rw [heq]
            rfl
          · show getU u (offerStep .confirm w) = _
            rw [heq]
            exact getU_stepTaken_confirm u _
        · obtain ⟨htli, hut, hwaits, -⟩ := offerStep_waits_writes (s := w) hne (by
            show 64 < s.tli.queue.length + 1
            omega)
          exact ⟨htli, hut, hwaits⟩
      · have hfalse : ¬(true && decide ((inForce v).litCount ≤ (runCounted true v).lm.iso.litRun)) = true :=
          fun h => hrun (of_decide_eq_true h)
        rw [if_neg hfalse]
        exact ⟨rfl, fun h => absurd hl h, fun _ _ => ⟨hphase, rfl, rfl, rfl⟩, fun _ h => absurd h hrun⟩
    · obtain rfl : lit = false := by rw [← Bool.not_eq_true]; exact mt hlit.mp hl
      exact ⟨rfl, fun _ => ⟨hphase, rfl, rfl, rfl⟩, fun h => absurd h hl, fun h => absurd h hl⟩
  · rw [judgeDark_watch (s := v) hphase, watchSample_idle (s := v) hnot]
    exact ⟨hphase, rfl, rfl⟩
  · rw [judgeDark_holdoff (s := v) hphase]
    exact ⟨rfl, rfl, rfl⟩

/-! ### Tail events (R112 to R115) -/

section
variable {u v : UnitNo} {s : State}

theorem tailSpanStep_of_open (h : (getU u s).tailSpan < 64) : tailSpanStep u s = s := by
  simp [tailSpanStep, tailSpanOver, Nat.not_le.mpr h]

theorem chargeTail_idle (h : serves (getU u s) = false) : chargeTail u s = s := by
  simp [chargeTail, h]

theorem chargeTail_serving (h : serves (getU u s) = true) (hspan : (getU u s).tailSpan < 64) : chargeTail u s
    = if 3 ≤ (getU u s).tailEvents then tailRerange u (modU u charged s) else modU u charged s := by
  have hevents : (getU u (modU u charged s)).tailEvents = (getU u s).tailEvents + 1 := by
    rw [getU_modU_same]
    rfl
  unfold chargeTail
  rw [if_pos h, tailSpanStep_of_open hspan]
  show (if 4 ≤ (getU u (modU u charged s)).tailEvents then tailRerange u (modU u charged s) else modU u charged s) = _
  rw [hevents]
  simp only [show 4 ≤ (getU u s).tailEvents + 1 ↔ 3 ≤ (getU u s).tailEvents by omega]

/-- The span of a record after a guard sample of its own grant (R115). -/
def advanced (r : UnitRecord) : UnitRecord :=
  if serves r = true ∧ 1 ≤ r.tailEvents then { r with tailSpan := r.tailSpan + 1 } else r

theorem advanceSpan_of_open (hspan : (getU u s).tailSpan < 64) : advanceSpan u s = modU u advanced s := by
  unfold advanceSpan
  by_cases h : serves (getU u s) = true
  · rw [if_pos h, tailSpanStep_of_open hspan]
    simp only [modU, advanced, h, true_and]
  · rw [if_neg h]
    have hsame : advanced (getU u s) = getU u s := by simp [advanced, h]
    have hid : modU u advanced s = modU u (fun r => r) s := by simp only [modU, hsame]
    rw [hid, modU_id]

theorem advanceSpan_idle (h : serves (getU u s) = false) : advanceSpan u s = s := by
  simp [advanceSpan, h]

theorem chargeNamed_unit (u : UnitNo) (s : State) : chargeNamed u.val s = chargeTail u s := by
  simp [chargeNamed, unitOf]

/-- The unit's guard has been judged (R112). -/
def guardJudged (n : Nat) (u : UnitNo) (s : State) : State := modGrant n u (fun g => { g with guarded := true }) s

theorem exec_guardSample {n : Nat} {readings : List Nat} {p : Plan} {g : GrantRecord} (hheld : s.held = false)
    (hp : findPlan n s = some p) (hg : unitGrant u p = some g) (hnew : g.guarded = false)
    (hv : (∃ q, predecessor g.start p = some q ∧ q.unit = v.val) ∨ (predecessor g.start p = none ∧ v = u)) :
    exec (.guardSample n u readings) s = .next (advanceSpan u
      (if isLit (peakLevel readings) s then chargeTail v (guardJudged n u s) else guardJudged n u s)) := by
  refine (unlessHeld_of_not_held hheld _).trans ?_
  simp only [guardStep, hp, hg, hnew, Bool.false_eq_true, if_false]
  rcases hv with ⟨q, hq, hunit⟩ | ⟨hnone, rfl⟩
  · rw [hq]
    simp only [hunit, chargeNamed_unit]
    rfl
  · rw [hnone]
    simp only [chargeNamed_unit]
    rfl

end

/-- Settles O31: the charge, where the guard is lit and the record serves, and then the own span. -/
theorem guardSampleChargesATail : Obligations.GuardSampleChargesATail := by
  unfold Obligations.GuardSampleChargesATail
  intro n u v readings s p g hheld hp hg hnew hv hspanU hspanV advance
  have hexec := exec_guardSample (readings := readings) hheld hp hg hnew hv
  let j := guardJudged n u s
  have hadv : ∀ w : State, (getU u w).tailSpan < 64 → advanceSpan u w = modU u advanced w := fun w hw => advanceSpan_of_open hw
  by_cases hcharge : LitOver readings s ∧ serves (getU v s) = true ∧ (getU v s).tailEvents < 3
  case neg =>
    by_cases hquiet : ¬LitOver readings s ∨ serves (getU v s) = false
    · have hsame : (if isLit (peakLevel readings) s then chargeTail v j else j) = j := by
        rcases hquiet with hnot | hidle
        · rw [if_neg (mt (isLit_peakLevel _ _).mp hnot)]
        · rw [chargeTail_idle (s := j) hidle]
          exact ite_self j
      rw [hsame, hadv j hspanU] at hexec
      refine ⟨_, hexec, fun _ => ⟨getU_modU_same u advanced j, ?_, rfl, rfl⟩, fun hlit hserves hfew => absurd ⟨hlit, hserves, hfew⟩ hcharge⟩
      exact (otherUnits_of_tables (t := j)).trans (modU_otherUnits u _ j)
    · exact ⟨_, hexec, fun h => absurd h hquiet, fun hlit hserves hfew => absurd ⟨hlit, hserves, hfew⟩ hcharge⟩
  case pos =>
    obtain ⟨hlit, hserves, hfew⟩ := hcharge
    have hstep : (if isLit (peakLevel readings) s then chargeTail v j else j) = modU v charged j := by
      rw [if_pos ((isLit_peakLevel _ _).mpr hlit)]
      exact (chargeTail_serving (s := j) hserves hspanV).trans (if_neg (Nat.not_le.mpr hfew))
    have hspan : (getU u (modU v charged j)).tailSpan < 64 := by
      rw [getU_modU]
      split
      next h =>
        subst h
        show (if _ then 0 else (getU v s).tailSpan) < 64
        split <;> omega
      next => exact hspanU
    rw [hstep, hadv _ hspan] at hexec
    refine ⟨_, hexec, fun h => ?_, fun _ _ _ => ⟨fun hvu => ?_, fun hvu => ⟨?_, ?_⟩, fun w hwu hwv => ?_, rfl, rfl⟩⟩
    · rcases h with h | h
      · exact absurd hlit h
      · rw [hserves] at h; cases h
    · subst hvu
      rw [getU_modU_same, getU_modU_same]
      rfl
    · rw [getU_modU, if_neg (Ne.symm hvu), getU_modU_same]
      rfl
    · rw [getU_modU_same, getU_modU, if_neg hvu]
      rfl
    · rw [getU_modU, if_neg (Ne.symm hwu), getU_modU, if_neg (Ne.symm hwv)]
      rfl

end Sys2Proof.Machine

/-!
PROOFS. Condemnation: the fourth tail event (O32), and what a test of the search comes to (O30).
-/
namespace Sys2Proof.Machine

-- One proof after another, as in the tests: side by side, the proofs of one text hold more stacks than the check's memory has room for.
set_option Elab.async false

/-! ### A condemned record (R114) -/

/-- Bar sent is set before the record's service ends (R114, step 1). -/
def markedBar (u : UnitNo) (s : State) : State := modU u (fun r => { r with barSent := true }) s

/-- What a condemnation leaves of the record and its serial, whatever else the search does then. -/
structure Condemned (u : UnitNo) (x : Serial) (s t : State) : Prop where
  others  : OtherUnitsSame u s t
  barred  : isBarred x t = true
  retired : inService (getU u s) = true → LeftService u s t ∧ (getU u t).barSent = true
  freed   : neverServed (getU u s) = true → FreedDirectly u s t
  once    : OccurredOnce .rogueCondemned s t

section
variable {u : UnitNo} {x : Serial} {why : BarReason} {s t v : State}

theorem getU_markedBar : getU u (markedBar u s) = { getU u s with barSent := true } := getU_modU_same _ _ _

theorem addBar_spares {e : BarEntry} : Spares u s (addBar e s) := by
  rw [addBar_eq]
  exact .of_same

theorem condemnRecord_spares : Spares u (endService u (markedBar u s)) (condemnRecord u x why s) :=
  addBar_spares.trans (offerNotice_spares.trans occur_spares)

theorem condemnRecord_tli : (condemnRecord u x why s).tli = (endService u (markedBar u s)).tli := by
  show (occur .rogueCondemned (some x) (ownBar x why (endService u (markedBar u s)))).tli = _
  rw [(occur_reports _ _ _).tli, ownBar, (offerNotice_reports _ _).tli, addBar_eq]

theorem condemnRecord_lm : (condemnRecord u x why s).lm = (endService u (markedBar u s)).lm := by
  show (occur .rogueCondemned (some x) (ownBar x why (endService u (markedBar u s)))).lm = _
  rw [(occur_reports _ _ _).lm, ownBar, (offerNotice_reports _ _).lm, addBar_eq]

theorem getK_condemnRecord {k : AlarmKind} (hk : k ∉ sideKinds) (hr : k ≠ .rogueCondemned) :
    getK k (condemnRecord u x why s) = getK k s := by
  obtain ⟨hover, -, -⟩ := ne_of_not_sideKind hk
  rw [condemnRecord, getK_occur_other hover hr.symm, ownBar, getK_offerNotice hover (fun _ _ h => by cases h), addBar_eq]
  exact getK_endService hk

theorem condemned_condemnRecord (u : UnitNo) (x : Serial) (why : BarReason) (s : State) :
    Condemned u x s (condemnRecord u x why s) := by
  have hUm := getU_markedBar (u := u) (s := s)
  have hmark : OtherUnitsSame u s (markedBar u s) := modU_otherUnits u _ s
  have hsame : SameService u s (markedBar u s) := sameService_of_account rfl (by rw [hUm]) (by rw [hUm]) (by rw [hUm])
  have hspares := condemnRecord_spares (u := u) (x := x) (why := why) (s := s)
  have hother : OtherUnitsSame u (endService u (markedBar u s)) (condemnRecord u x why s) := by
    have hbar : OtherUnitsSame u (endService u (markedBar u s))
        (addBar ⟨x, (endService u (markedBar u s)).sc.station, why⟩ (endService u (markedBar u s))) := by
      rw [addBar_eq]
      exact otherUnits_of_tables
    exact (hbar.trans ((offerNotice_reports _ _).otherUnits u)).trans ((occur_reports _ _ _).otherUnits u)
  refine ⟨(hmark.trans (endService_otherUnits u _)).trans hother, ?_, fun hi => ?_, fun hn => ?_, ?_⟩
  · have hdv : (condemnRecord u x why s).dv.barred
        = (addBar ⟨x, (endService u (markedBar u s)).sc.station, why⟩ (endService u (markedBar u s))).dv.barred := by
      show (occur .rogueCondemned (some x) (ownBar x why (endService u (markedBar u s)))).dv.barred = _
      rw [(occur_reports _ _ _).dv, ownBar, (offerNotice_reports _ _).dv]
    unfold isBarred
    rw [hdv]
    exact isBarred_addBar_same (e := ⟨x, (endService u (markedBar u s)).sc.station, why⟩)
  · have hi' : inService (getU u (markedBar u s)) = true := by rw [hUm]; exact hi
    rw [endService_of_inService hi'] at hspares
    refine ⟨((leftService_retire u _).spared hspares).of_same hsame, ?_⟩
    rw [hspares.record, getU_retire, if_pos rfl, hUm]
    rfl
  · have hn' : neverServed (getU u (markedBar u s)) = true := by rw [hUm]; exact hn
    rw [endService_of_neverServed hn'] at hspares
    exact ((freedDirectly_directFree u _).spared hspares).of_state (by rw [hUm])
  · have hquiet : getK .rogueCondemned (ownBar x why (endService u (markedBar u s))) = getK .rogueCondemned s := by
      rw [ownBar, getK_offerNotice (by decide) (fun _ _ h => by cases h), addBar_eq]
      exact getK_endService (by decide)
    exact (occurredOnce_occur (by decide)).earlier hquiet

theorem OnlySearch.isBarred (h : OnlySearch s t) (x : Serial) : isBarred x t = Machine.isBarred x s := by
  unfold Machine.isBarred
  rw [h.dv]

/-- Closing offers spare a unit: they are orders of the LM, and the search goes on as it did. -/
theorem addClosings_spares {l : List ClosingOffer} : Spares u s (addClosings l s) := by
  by_cases hl : l = []
  · subst hl
    exact .refl
  have r := addClosings_search l s
  have horders := addClosings_addsSearchOrders l s
  obtain ⟨c, n, d, hiso⟩ := addClosings_iso hl s
  exact {
    record := getU_congr r.ut u
    live := r.live u
    takeNo := r.takeNo u
    snapshot := r.snapshot u
    onLine := r.onLine u
    attempt := by
      have hE : getE u (addClosings l s) = getE u s := getE_congr (by rw [r.ec]) u
      rw [hE]
    ranging := fun h => by rwa [r.ec] at h
    dropKept := fun q hq _ => horders.kept q hq
    joined := fun q hq hp => .inl ((horders.added q hq).resolve_right fun hlm => by rw [hlm] at hp; cases hp)
    search := fun h => by
      unfold OutOfSearch at *
      rw [hiso]
      exact h
    saturated := fun h => by rwa [getK_congr (addClosings_alarms l s)] }

theorem Condemned.addClosings (h : Condemned u x s t) (l : List ClosingOffer) : Condemned u x s (addClosings l t) := by
  have r := addClosings_search l t
  have hspares : Spares u t (Machine.addClosings l t) := addClosings_spares
  refine ⟨h.others.trans (r.otherUnits u), by rw [r.isBarred]; exact h.barred, fun hi => ?_, fun hn => (h.freed hn).spared hspares,
    h.once.later (getK_congr (addClosings_alarms l t) _)⟩
  obtain ⟨hleft, hbar⟩ := h.retired hi
  exact ⟨hleft.spared hspares, by rw [hspares.record]; exact hbar⟩

end

/-! ### The fourth tail event (R116) -/

section
variable {u : UnitNo} {x : Serial} {s : State}

/-- The tail history of a record at its fourth event (R116). -/
def tailsSpent (r : UnitRecord) : UnitRecord := { r with tailEvents := 0, tailSpan := 0, tailReranges := r.tailReranges + 1 }

theorem tailRerange_eq (u : UnitNo) (s : State) : tailRerange u s =
    if (getU u s).tailReranges < 2 then reRange u (occur .tailRerange (getU u s).serial (modU u tailsSpent s))
    else condemnTail u (occur .tailRerange (getU u s).serial (modU u tailsSpent s)) := by
  have hU : getU u (occur .tailRerange (getU u s).serial (modU u tailsSpent s)) = tailsSpent (getU u s) :=
    ((occur_reports _ _ _).getU u).trans (getU_modU_same _ _ _)
  show (if (getU u (occur .tailRerange (getU u s).serial (modU u tailsSpent s))).tailReranges < 3
    then reRange u (occur .tailRerange (getU u s).serial (modU u tailsSpent s))
    else condemnTail u (occur .tailRerange (getU u s).serial (modU u tailsSpent s))) = _
  rw [hU]
  have hiff : (tailsSpent (getU u s)).tailReranges < 3 ↔ (getU u s).tailReranges < 2 :=
    show (getU u s).tailReranges + 1 < 3 ↔ _ by omega
  simp only [hiff]

theorem offerBarSerial_ut : (offerBarSerial x s).ut = s.ut := by
  rcases offerBarSerial_cases x s with ⟨-, h⟩ | ⟨-, h⟩
  · rw [h]; rfl
  · rw [h]

theorem getK_offerBarSerial (k : AlarmKind) : getK k (offerBarSerial x s) = getK k s := by
  rcases offerBarSerial_cases x s with ⟨-, h⟩ | ⟨-, h⟩ <;> rw [h] <;> rfl

theorem offerBarSerial_ucb : (offerBarSerial x s).ucb = s.ucb := by
  rcases offerBarSerial_cases x s with ⟨-, h⟩ | ⟨-, h⟩
  · rw [h]; rfl
  · rw [h]

/-- An order of the LM is not withdrawn by a retirement, and the search adds to the queue alone. -/
theorem retire_keepsOrder {q : QueuedOrder} (hq : q ∈ s.tli.queue) (hp : q.producer ≠ .ec) : q ∈ (retire u s).tli.queue := by
  rw [retire_eq, closeBilling_tli]
  refine (isoRemove_addsSearchOrders u _).kept q (List.mem_filter.mpr ⟨hq, ?_⟩)
  simp [withdrawn, hp]

theorem retire_barWait : (retire u s).lm.barWait = s.lm.barWait := by
  rw [retire_eq, closeBilling_lm, (isoRemove_search u _).lm]
  rfl

end

/-- A fourth event within the span: the third time the record is condemned behind its BAR_SERIAL, and before that it is ranged again. -/
theorem fourthTail_chargeTail {u : UnitNo} {x : Serial} {s : State} (hserves : serves (getU u s) = true) (hspan : (getU u s).tailSpan < 64)
    (hevents : (getU u s).tailEvents = 3) (hx : (getU u s).serial = some x) : FourthTail u x s (chargeTail u s)
      ∧ OtherUnitsSame u s (chargeTail u s) ∧ serves (getU u (chargeTail u s)) = false := by
  let c := modU u charged s
  let o := occur .tailRerange (getU u c).serial (modU u tailsSpent c)
  have hUc : getU u c = charged (getU u s) := getU_modU_same _ _ _
  have ro : OnlyReports (modU u tailsSpent c) o := occur_reports _ _ _
  have hUo : getU u o = tailsSpent (charged (getU u s)) := by rw [ro.getU, getU_modU_same, hUc]
  have hother : OtherUnitsSame u s o :=
    ((modU_otherUnits u _ s).trans (modU_otherUnits u _ _)).trans (ro.otherUnits u)
  have honce : OccurredOnce .tailRerange s o := (occurredOnce_occur (by decide)).earlier rfl
  have hreranges : (getU u c).tailReranges = (getU u s).tailReranges := by rw [hUc]; rfl
  have hcharge : chargeTail u s = tailRerange u c := (chargeTail_serving hserves hspan).trans (if_pos (Nat.le_of_eq hevents.symm))
  rw [hcharge, tailRerange_eq, hreranges]
  by_cases hfew : (getU u s).tailReranges < 2
  case pos =>
    have hUr : getU u (reRange u o) = rangingRecord true (getU u o).eqd (getU u o) := (getU_enterRanging _ _ _ _ _).trans (if_pos rfl)
    have hidle : serves (getU u (reRange u o)) = false := by rw [hUr]; rfl
    rw [if_pos hfew]
    have hagain : RangesAgain u (getU u o).eqd o (reRange u o) := rangesAgain_enterRanging u _ o
    refine ⟨⟨honce.later rfl, ?_, ?_, ?_, fun _ => ⟨?_, ?_⟩, fun h => absurd hfew (Nat.not_lt.mpr h)⟩,
      hother.trans (enterRanging_otherUnits u _ _ _), hidle⟩
    · rw [hUr]; rfl
    · rw [hUr]; rfl
    · rw [hUr, hUo]; rfl
    · unfold RangesAgain at hagain ⊢
      rw [hUo, ro.ec] at hagain
      exact hagain
    · show o.tli = s.tli
      rw [ro.tli]
      rfl
  case neg =>
    have hmany : 2 ≤ (getU u s).tailReranges := Nat.not_lt.mp hfew
    have hxo : (getU u o).serial = some x := by rw [hUo]; exact hx
    let b := offerBarSerial x o
    have hUb : getU u b = getU u o := getU_congr offerBarSerial_ut u
    have hcondemn : condemnTail u o = condemnRecord u x .tail b := by
      rw [condemnTail]
      simp only [hxo]
      rfl
    have hserving : inService (getU u b) = true := by
      rw [hUb, hUo]
      show inService (getU u s) = true
      simp [inService, hserves]
    have h := condemned_condemnRecord u x .tail b
    obtain ⟨hleft, hbarSent⟩ := h.retired hserving
    have hsame : SameService u s b := by
      have hjudged : SameService u s c := sameService_of_account rfl (by rw [hUc]; rfl) (by rw [hUc]; rfl) (by rw [hUc]; rfl)
      have hspent : getU u (modU u tailsSpent c) = tailsSpent (getU u c) := getU_modU_same _ _ _
      have hs2 : SameService u c (modU u tailsSpent c) :=
        sameService_of_account rfl (by rw [hspent]; rfl) (by rw [hspent]; rfl) (by rw [hspent]; rfl)
      have hs3 : SameService u o b :=
        sameService_of_account (getA_congr (by rw [offerBarSerial_ucb]) u) (by rw [hUb]) (by rw [hUb]) (by rw [hUb])
      exact (hjudged.trans hs2).trans ((ro.search.sameService u).trans hs3)
    have hmarked : inService (getU u (markedBar u b)) = true := by rw [getU_markedBar]; exact hserving
    have hend : endService u (markedBar u b) = retire u (markedBar u b) := endService_of_inService hmarked
    have hrecord : getU u (condemnRecord u x .tail b) = retiredRecord { getU u b with barSent := true } := by
      rw [condemnRecord_spares.record, hend, getU_retire, if_pos rfl, getU_markedBar]
    have hidle : serves (getU u (condemnRecord u x .tail b)) = false := by rw [hrecord]; rfl
    rw [if_neg hfew, hcondemn]
    have hqueue : o.tli = s.tli := by rw [ro.tli]; rfl
    refine ⟨⟨?_, ?_, ?_, ?_, fun h => absurd h hfew, fun _ => ⟨hleft.of_same hsame, hbarSent, h.barred, ?_, fun hroom => ?_, fun hfull => ?_⟩⟩, ?_, hidle⟩
    · exact honce.later ((getK_condemnRecord (by decide) (by decide)).trans (getK_offerBarSerial _))
    · rw [hrecord, hUb, hUo]; rfl
    · rw [hrecord, hUb, hUo]; rfl
    · rw [hrecord, hUb, hUo]; rfl
    · refine h.once.earlier ((getK_offerBarSerial _).trans ?_)
      exact (getK_occur_other (by decide) (by decide)).trans rfl
    · have hbq : ⟨.barSerial x, .lm, .plain⟩ ∈ b.tli.queue := by
        rcases offerBarSerial_cases x o with ⟨-, heq⟩ | ⟨hfull, -⟩
        · rw [show b = _ from heq]
          exact mem_enqueue.mpr (.inl rfl)
        · rw [hqueue] at hfull
          omega
      have hkept : ⟨.barSerial x, .lm, .plain⟩ ∈ (condemnRecord u x .tail b).tli.queue := by
        rw [condemnRecord_tli, hend]
        exact retire_keepsOrder (s := markedBar u b) hbq (by simp)
      exact List.mem_map.mpr ⟨_, List.mem_filter.mpr ⟨hkept, rfl⟩, rfl⟩
    · rw [condemnRecord_lm, hend, retire_barWait]
      show _ ∈ b.lm.barWait
      rcases offerBarSerial_cases x o with ⟨hroom, -⟩ | ⟨-, heq⟩
      · rw [hqueue] at hroom
        omega
      · rw [show b = _ from heq]
        exact List.mem_append_right _ (List.mem_singleton.mpr rfl)
    · have hbother : OtherUnitsSame u o b := otherUnits_of_tables offerBarSerial_ut (by rw [offerBarSerial_ucb])
      exact (hother.trans hbother).trans h.others

/-- Settles O32: the guard is lit and charged to the record itself, whose own span then advances no more. -/
theorem fourthTailEventRangesOrCondemns : Obligations.FourthTailEventRangesOrCondemns := by
  unfold Obligations.FourthTailEventRangesOrCondemns
  intro n u readings s p g x hheld hp hg hnew hpred hlit hserves hevents hspan hx
  have hexec := exec_guardSample (v := u) (readings := readings) hheld hp hg hnew (.inr ⟨hpred, rfl⟩)
  obtain ⟨hfourth, hother, hidle⟩ := fourthTail_chargeTail (s := guardJudged n u s) hserves hspan hevents hx
  rw [if_pos ((isLit_peakLevel _ _).mpr hlit), advanceSpan_idle hidle] at hexec
  exact ⟨_, hexec, hfourth, hother⟩

end Sys2Proof.Machine

/-!
PROOFS. The tests of the search and what they come to (O30).
-/
namespace Sys2Proof.Machine

-- One proof after another, as in the tests: side by side, the proofs of one text hold more stacks than the check's memory has room for.
set_option Elab.async false

/-! ### A run of closing offers (R119) -/

/-- The offers of a run that are taken are a first part of it, each with its last order marked; the next one finds no room. -/
theorem offerClosings_takes (l : List ClosingOffer) (hl : ∀ o ∈ l, o.orders ≠ [] ∧ ∀ y ∈ o.orders, orderGroup y = 1) (s : State) :
    ∃ a b, l = a ++ b ∧ urgentOrders (offerClosings l s) = urgentOrders s ++ a.flatMap (·.orders)
      ∧ (offerClosings l s).tli.queue.length = s.tli.queue.length + (a.flatMap (·.orders)).length
      ∧ (offerClosings l s).lm.iso.closing = b ∧ (∀ o ∈ a, ∃ q ∈ (offerClosings l s).tli.queue, q.mark = .closingEnd o.clears)
      ∧ (a = [] ∨ s.tli.queue.length + (a.flatMap (·.orders)).length ≤ 64)
      ∧ ∀ o c, b = o :: c → 64 < s.tli.queue.length + (a.flatMap (·.orders)).length + o.orders.length := by
  induction l generalizing s with
  | nil =>
    exact ⟨[], [], rfl, by simp [offerClosings, urgentOrders], by simp [offerClosings], rfl, by simp, .inl rfl, by simp⟩
  | cons o l ih =>
    obtain ⟨hne, hurgent⟩ := hl o List.mem_cons_self
    by_cases hroom : s.tli.queue.length + o.orders.length ≤ 64
    · obtain ⟨a, b, hsplit, hurg, hlen, hclosing, hmarked, hfits, hfull⟩ := ih (fun p hp => hl p (List.mem_cons_of_mem o hp)) (closingJoined o s)
      rw [offerClosings_taken hroom]
      rw [closingJoined_length] at hlen hfits hfull
      refine ⟨o :: a, b, by rw [hsplit]; rfl, ?_, ?_, hclosing, fun p hp => ?_, .inr ?_, fun p c hb => ?_⟩
      · rw [hurg, closingJoined_urgent hurgent, List.append_assoc]
        rfl
      · rw [hlen, List.flatMap_cons, List.length_append]
        omega
      · rcases List.mem_cons.mp hp with rfl | hp
        · obtain ⟨q, hq, hm⟩ := closingJoined_marked (s := s) hne
          exact ⟨q, (offerClosings_addsSearchOrders l _).kept q hq, hm⟩
        · exact hmarked p hp
      · rw [List.flatMap_cons, List.length_append]
        rcases hfits with rfl | h
        · simpa using hroom
        · omega
      · have := hfull p c hb
        rw [List.flatMap_cons, List.length_append]
        omega
    · rw [offerClosings_waits (Nat.not_le.mp hroom)]
      exact ⟨[], o :: l, rfl, by simp [urgentOrders], by simp, rfl, by simp, .inl rfl, fun p c hb => by
        obtain ⟨rfl, -⟩ := List.cons.inj hb
        simpa using hroom⟩

/-! ### The verdict UNENROLLED (R127) -/

theorem speakOffers_few {l : List UnitNo} (hl : l ≠ []) (hlen : l.length ≤ 32) :
    speakOffers l = [⟨l.map .speakUnit, .units l⟩] := by
  simp [speakOffers, List.take_of_length_le hlen, List.drop_eq_nil_of_le hlen, hl]

theorem speakOffers_many {l : List UnitNo} (hlen : 32 < l.length) : speakOffers l
    = [⟨(l.take 32).map .speakUnit, .units (l.take 32)⟩, ⟨(l.drop 32).map .speakUnit, .units (l.drop 32)⟩] := by
  have htake : l.take 32 ≠ [] := by
    rw [← List.length_pos_iff_ne_nil, List.length_take]
    omega
  have hdrop : l.drop 32 ≠ [] := by
    rw [← List.length_pos_iff_ne_nil, List.length_drop]
    omega
  simp only [speakOffers, List.filterMap_cons, htake, hdrop, if_false, List.filterMap_nil]

theorem speakOffers_orders {l : List UnitNo} (hl : l ≠ []) : (speakOffers l).flatMap (·.orders) = l.map .speakUnit := by
  rcases Nat.lt_or_ge 32 l.length with h | h
  · simp [speakOffers_many h, ← List.map_append, -List.map_take, -List.map_drop]
  · simp [speakOffers_few hl h]

theorem speakOffers_urgent (l : List UnitNo) : ∀ o ∈ speakOffers l, o.orders ≠ [] ∧ ∀ y ∈ o.orders, orderGroup y = 1 := by
  intro o ho
  obtain ⟨c, -, hc⟩ := List.mem_filterMap.mp ho
  split at hc
  · cases hc
  next hne =>
    obtain rfl := Option.some.inj hc
    exact ⟨fun h => hne (List.map_eq_nil_iff.mp h), fun y hy => by
      obtain ⟨v, -, rfl⟩ := List.mem_map.mp hy
      rfl⟩

theorem speakOffers_covers {l : List UnitNo} {u : UnitNo} (hu : u ∈ l) : ∃ o ∈ speakOffers l, o.clears.covers u = true := by
  rcases Nat.lt_or_ge 32 l.length with h | h
  · rw [speakOffers_many h]
    rw [← List.take_append_drop 32 l] at hu
    rcases List.mem_append.mp hu with hu | hu
    · exact ⟨_, List.mem_cons_self, by simpa [ClearSet.covers] using hu⟩
    · exact ⟨_, List.mem_cons_of_mem _ List.mem_cons_self, by simpa [ClearSet.covers] using hu⟩
  · rw [speakOffers_few (List.ne_nil_of_mem hu) h]
    exact ⟨_, List.mem_cons_self, by simpa [ClearSet.covers] using hu⟩

/-- How many of the orders of an UNENROLLED verdict are taken when none waits (R127): none, one offer or both. -/
theorem speakOffers_taken {l : List UnitNo} {a b : List ClosingOffer} {n : Nat} (hl : l ≠ []) (hlen : l.length ≤ 64)
    (hsplit : speakOffers l = a ++ b) (hfits : a = [] ∨ n + (a.flatMap (·.orders)).length ≤ 64)
    (hfull : ∀ o c, b = o :: c → 64 < n + (a.flatMap (·.orders)).length + o.orders.length) :
    ∃ k, k = (if 64 < n + min 32 l.length then 0 else if n + l.length ≤ 64 then l.length else 32)
      ∧ a.flatMap (·.orders) = (l.take k).map .speakUnit ∧ b.flatMap (·.orders) = (l.drop k).map .speakUnit
      ∧ (a.flatMap (·.orders)).length = k := by
  have hcases : ∀ k, k ≤ l.length → (a.flatMap (·.orders)).length = k → a.flatMap (·.orders) = (l.take k).map .speakUnit
      ∧ b.flatMap (·.orders) = (l.drop k).map .speakUnit := fun k hk ha => by
    have hall : a.flatMap (·.orders) ++ b.flatMap (·.orders) = (l.take k).map .speakUnit ++ (l.drop k).map .speakUnit := by
      rw [← List.flatMap_append, ← hsplit, speakOffers_orders hl, ← List.map_append, List.take_append_drop]
    exact List.append_inj hall (by rw [ha, List.length_map, List.length_take]; omega)
  have hpos : 0 < l.length := List.length_pos_iff_ne_nil.mpr hl
  rcases Nat.lt_or_ge 32 l.length with h | h
  · rw [speakOffers_many h] at hsplit
    rcases a with _ | ⟨o, a⟩
    · refine ⟨0, ?_, (hcases 0 (by omega) rfl).1, (hcases 0 (by omega) rfl).2, rfl⟩
      have := hfull _ _ hsplit.symm
      simp only [List.flatMap_nil, List.length_nil, List.length_map, List.length_take] at this
      rw [if_pos (by omega)]
    · simp only [List.cons_append, List.cons.injEq] at hsplit
      obtain ⟨rfl, hsplit⟩ := hsplit
      rcases a with _ | ⟨o, a⟩
      · have ha : ([(⟨(l.take 32).map .speakUnit, .units (l.take 32)⟩ : ClosingOffer)].flatMap (·.orders)).length = 32 := by
          simp
          omega
        refine ⟨32, ?_, (hcases 32 (by omega) ha).1, (hcases 32 (by omega) ha).2, ha⟩
        have hmore := hfull _ _ (by simpa using hsplit.symm)
        rw [ha] at hmore
        have hfit := hfits.resolve_left (by simp)
        rw [ha] at hfit
        simp only [List.length_map, List.length_drop] at hmore
        rw [if_neg (by omega), if_neg (by omega)]
      · simp only [List.cons_append, List.cons.injEq] at hsplit
        obtain ⟨rfl, hsplit⟩ := hsplit
        obtain ⟨rfl, rfl⟩ := List.append_eq_nil_iff.mp hsplit.symm
        have ha : ([(⟨(l.take 32).map .speakUnit, .units (l.take 32)⟩ : ClosingOffer),
            ⟨(l.drop 32).map .speakUnit, .units (l.drop 32)⟩].flatMap (·.orders)).length = l.length := by
          simp
        refine ⟨l.length, ?_, (hcases _ (by omega) ha).1, (hcases _ (by omega) ha).2, ha⟩
        have hfit := hfits.resolve_left (by simp)
        rw [ha] at hfit
        rw [if_neg (by omega), if_pos (by omega)]
  · rw [speakOffers_few hl h] at hsplit
    rcases a with _ | ⟨o, a⟩
    · refine ⟨0, ?_, (hcases 0 (by omega) rfl).1, (hcases 0 (by omega) rfl).2, rfl⟩
      have := hfull _ _ hsplit.symm
      simp only [List.flatMap_nil, List.length_nil, List.length_map] at this
      rw [if_pos (by omega)]
    · simp only [List.cons_append, List.cons.injEq] at hsplit
      obtain ⟨rfl, hsplit⟩ := hsplit
      obtain ⟨rfl, rfl⟩ := List.append_eq_nil_iff.mp hsplit.symm
      have ha : ([(⟨l.map .speakUnit, .units l⟩ : ClosingOffer)].flatMap (·.orders)).length = l.length := by simp
      refine ⟨l.length, ?_, (hcases _ (by omega) ha).1, (hcases _ (by omega) ha).2, ha⟩
      have hfit := hfits.resolve_left (by simp)
      rw [ha] at hfit
      rw [if_neg (by omega), if_pos (by omega)]

/-- The hush flags of the records off the tree are cleared at an UNENROLLED verdict (R127). -/
def offTreeCleared (s : State) : State := mapU (fun r => if onTree r then r else { r with hush := false }) s

/-- The records on the tree whose hush flag is set (R127). -/
def hushedUnits (s : State) : List UnitNo := allUnits.filter (fun u => onTree (getU u s) && (getU u s).hush)

theorem verdictUnenrolled_eq (v : State) : verdictUnenrolled v
    = addClosings (speakOffers (hushedUnits v)) (offTreeCleared (verdictHeld .rogueUnenrolled .unenrolled v)) := rfl

theorem hushedUnits_length (s : State) : (hushedUnits s).length ≤ 64 :=
  (List.length_filter_le _ _).trans (by simp [allUnits])

theorem speakOffers_nil : speakOffers [] = [] := rfl

theorem unenrolledVerdict_verdictUnenrolled {s v : State} (h : SameSearch s v) : UnenrolledVerdict s (verdictUnenrolled v) := by
  let w := offTreeCleared (verdictHeld .rogueUnenrolled .unenrolled v)
  let l := hushedUnits s
  have hiso : w.lm.iso = { searchEnded v.lm.iso with phase := .holdoff, cause := .unenrolled, holdoff := 240000 } :=
    verdictHeld_iso .rogueUnenrolled .unenrolled v
  have htli : w.tli = s.tli := (verdictHeld_tli _ _ _).trans h.tli
  have hclosing : w.lm.iso.closing = s.lm.iso.closing := by rw [hiso]; exact h.closing
  have hcount : w.lm.iso.countFrom = s.lm.iso.countFrom := by rw [hiso]; exact h.countFrom
  have hhushed : hushedUnits v = l := by
    unfold hushedUnits
    simp only [getU_congr h.ut]
    rfl
  have hU : ∀ u, getU u w = if onTree (getU u s) = true then getU u s else { getU u s with hush := false } := fun u => by
    rw [show getU u w = _ from getU_mapU _ _ _, getU_congr ((verdictHeld_ut _ _ _).trans h.ut)]
  have honce : OccurredOnce .rogueUnenrolled s w := (verdictHeld_once (by decide) h.alarms).later rfl
  rw [verdictUnenrolled_eq, hhushed]
  by_cases hl : l = []
  case pos =>
    rw [hl, speakOffers_nil]
    show UnenrolledVerdict s w
    refine ⟨by rw [hiso], by rw [hiso], by rw [hiso], honce, hU, fun _ => ⟨htli, hclosing, hcount⟩, fun hne => absurd hl hne⟩
  case neg =>
    have hoffers : speakOffers l ≠ [] := fun h => by
      obtain ⟨u, hu⟩ := List.exists_mem_of_ne_nil l hl
      obtain ⟨o, ho, -⟩ := speakOffers_covers hu
      rw [h] at ho
      cases ho
    obtain ⟨c, n, d, hiso'⟩ := addClosings_iso hoffers w
    have hU' : ∀ u, getU u (addClosings (speakOffers l) w) = getU u w := getU_congr (addClosings_ut _ _)
    have honce' : OccurredOnce .rogueUnenrolled s (addClosings (speakOffers l) w) :=
      honce.later (getK_congr (addClosings_alarms _ _) _)
    refine ⟨by rw [hiso', hiso], by rw [hiso', hiso], by rw [hiso', hiso], honce', fun u => (hU' u).trans (hU u),
      fun hnone => absurd hnone hl, fun _ => ⟨by rw [hiso'], ?_⟩⟩
    by_cases hfirst : s.lm.iso.closing = []
    · obtain ⟨a, b, hsplit, hurgent, hlen, hwait, hmarked, hfits, hfull⟩ :=
        offerClosings_takes (speakOffers l) (speakOffers_urgent l) (countHeld w)
      have hqueue : (countHeld w).tli.queue = s.tli.queue := congrArg TreeLine.queue htli
      rw [hqueue] at hlen hfits hfull
      rw [urgentOrders_congr hqueue] at hurgent
      obtain ⟨k, hk, hatake, hbdrop, halen⟩ := speakOffers_taken hl (hushedUnits_length s) hsplit hfits hfull
      rw [addClosings_first hoffers (hclosing.trans hfirst)]
      refine ⟨fun u hu => ?_, k, ?_, ?_, ?_, ?_⟩
      · obtain ⟨o, ho, hcov⟩ := speakOffers_covers hu
        have ho : o ∈ a ++ b := by
          rw [← hsplit]
          exact ho
        rcases List.mem_append.mp ho with ho | ho
        · obtain ⟨q, hq, hm⟩ := hmarked o ho
          exact .inl ⟨q, hq, _, hm, hcov⟩
        · exact .inr ⟨o, by rw [hwait]; exact ho, hcov⟩
      · rw [hk]
        simp only [hfirst, ne_eq, not_true_eq_false, false_or]
        rfl
      · rw [hurgent, hatake]
        rfl
      · rw [hlen, halen]
      · rw [hwait, hbdrop, hfirst]
        rfl
    · have hbehind := addClosings_behind hoffers (s := w) (by rw [hclosing]; exact hfirst)
      have hwait : (addClosings (speakOffers l) w).lm.iso.closing = s.lm.iso.closing ++ speakOffers l := by
        rw [hbehind, ← hclosing]
        rfl
      have htli' : (addClosings (speakOffers l) w).tli = s.tli := by
        rw [hbehind]
        exact htli
      refine ⟨fun u hu => ?_, 0, ?_, ?_, ?_, ?_⟩
      · obtain ⟨o, ho, hcov⟩ := speakOffers_covers hu
        exact .inr ⟨o, by rw [hwait]; exact List.mem_append_right _ ho, hcov⟩
      · rw [if_pos (.inl hfirst)]
      · rw [urgentOrders_congr (congrArg TreeLine.queue htli')]
        simp
      · rw [htli']
        rfl
      · rw [hwait, List.flatMap_append, speakOffers_orders hl]
        rfl

end Sys2Proof.Machine

/-!
PROOFS. The result of a test of the search (O30).
-/
namespace Sys2Proof.Machine

-- One proof after another, as in the tests: side by side, the proofs of one text hold more stacks than the check's memory has room for.
set_option Elab.async false

/-! ### The queue after the end of a service, while no search goes on (R35, R37) -/

section
variable {u : UnitNo} {s : State}

/-- A withdrawal of orders of other groups leaves the urgent ones. -/
theorem urgents_withdraw {p : Producer} {which : PuOrder → Bool} (hw : ∀ o, which o = true → orderGroup o ≠ 1) (q : List QueuedOrder) :
    urgents (q.filter (fun x => !withdrawn p which x)) = urgents q := by
  unfold urgents
  rw [List.filter_filter]
  refine congrArg _ (List.filter_congr fun x _ => ?_)
  by_cases hg : orderGroup x.order = 1
  · have hnot : which x.order = false := by
      rw [← Bool.not_eq_true]
      exact fun h => hw _ h hg
    simp [hg, withdrawn, hnot]
  · simp [hg]

theorem isAssignFor_group {o : PuOrder} (h : isAssignFor u o = true) : orderGroup o ≠ 1 := by
  cases o <;> simp [isAssignFor, orderGroup] at h ⊢

theorem isEqdFor_group {o : PuOrder} (h : isEqdFor u o = true) : orderGroup o ≠ 1 := by
  cases o <;> simp [isEqdFor, orderGroup] at h ⊢

theorem retire_queue_of_watch (hw : s.lm.iso.phase = .watch) : (retire u s).tli.queue
    = s.tli.queue.filter (fun x => !withdrawn .ec (fun o => isAssignFor u o || isEqdFor u o) x) := by
  have hleft : (leftTree u s).lm.iso.phase = .watch := hw
  rw [retire_eq, closeBilling_tli, isoRemove_of_watch hleft]
  rfl

/-- The queue of a freeing from RANGING: the ASSIGN withdrawn, and the DROP_UNIT joined where there is room. -/
theorem directFree_queue_of_watch (hw : s.lm.iso.phase = .watch) (hr : (getU u s).state = .ranging) :
    let q := s.tli.queue.filter (fun x => !withdrawn .ec (isAssignFor u) x)
    (directFree u s).tli.queue = enqueue ⟨.dropUnit u, .ec, .plain⟩ q ∧ q.length < 64
      ∨ (directFree u s).tli.queue = q ∧ 64 ≤ q.length := by
  intro q
  have hqueue : (withdrawOrders .ec (isAssignFor u) (freedDirect u s)).1.tli.queue = q := rfl
  have hphase : (withdrawOrders .ec (isAssignFor u) (freedDirect u s)).1.lm.iso.phase = .watch := hw
  rw [(directFree_reports u s).tli, freedSilently, if_pos hr]
  obtain ⟨w, q', hdrop, hq⟩ := offerDrop_writes .ec u (withdrawOrders .ec (isAssignFor u) (freedDirect u s)).1
  generalize (withdrawOrders .ec (isAssignFor u) (freedDirect u s)).1 = v at hdrop hqueue hphase hq
  rw [isoRemove_of_watch (by rw [hdrop]; exact hphase), hdrop, hqueue] at *
  rcases hq with ⟨-, rfl, hlt⟩ | ⟨-, rfl, hge⟩
  · exact .inl ⟨rfl, hlt⟩
  · exact .inr ⟨rfl, hge⟩

/-- What the end of a service on the tree does to the queue: the urgent orders stand, it grows by a DROP_UNIT at most, and a full
one from which nothing is withdrawn stands as it is. -/
theorem endService_queue_of_watch (hw : s.lm.iso.phase = .watch) (hu : onTree (getU u s) = true) :
    urgentOrders (endService u s) = urgentOrders s
      ∧ (inService (getU u s) = true → (endService u s).tli.queue.length ≤ s.tli.queue.length)
      ∧ (endService u s).tli.queue.length ≤ s.tli.queue.length + 1
      ∧ (s.tli.queue.length = 64 → (∀ q ∈ s.tli.queue, isAssignFor u q.order = false ∧ isEqdFor u q.order = false) →
          (endService u s).tli.queue = s.tli.queue) := by
  by_cases hi : inService (getU u s) = true
  · have hqueue := retire_queue_of_watch (u := u) hw
    rw [endService_of_inService hi]
    have hlen : (retire u s).tli.queue.length ≤ s.tli.queue.length := by
      rw [hqueue]
      exact List.length_filter_le _ _
    refine ⟨?_, fun _ => hlen, hlen.trans (Nat.le_succ _), fun _ hnone => ?_⟩
    · rw [urgentOrders_eq, hqueue]
      exact urgents_withdraw (fun o ho => (Bool.or_eq_true_iff.mp ho).elim isAssignFor_group isEqdFor_group) _
    · rw [hqueue]
      refine List.filter_eq_self.mpr fun q hq => ?_
      obtain ⟨ha, he⟩ := hnone q hq
      simp [withdrawn, ha, he]
  · have hr : (getU u s).state = .ranging := by
      revert hu hi
      simp only [onTree, inService, serves]
      cases (getU u s).state <;> simp
    have hn : neverServed (getU u s) = true := by
      revert hi
      simp only [neverServed, inService, serves, hr]
      cases (getU u s).returning <;> simp
    rw [endService_of_neverServed hn]
    have hfilter := List.length_filter_le (fun x => !withdrawn .ec (isAssignFor u) x) s.tli.queue
    have hurgent := urgents_withdraw (p := .ec) (which := isAssignFor u) (fun o => isAssignFor_group) s.tli.queue
    have hnone : (∀ q ∈ s.tli.queue, isAssignFor u q.order = false ∧ isEqdFor u q.order = false) →
        s.tli.queue.filter (fun x => !withdrawn .ec (isAssignFor u) x) = s.tli.queue := fun h =>
      List.filter_eq_self.mpr fun q hq => by simp [withdrawn, (h q hq).1]
    rcases directFree_queue_of_watch hw hr with ⟨hq, hlt⟩ | ⟨hq, hge⟩
    · refine ⟨?_, fun h => absurd h hi, ?_, fun hfull h => ?_⟩
      · rw [urgentOrders_eq, hq, urgents_enqueue_other (by simp [orderGroup]), hurgent]
        rfl
      · rw [hq, enqueue_length]
        omega
      · rw [hnone h, hfull] at hlt
        omega
    · refine ⟨?_, fun h => absurd h hi, ?_, fun _ h => by rw [hq, hnone h]⟩
      · rw [urgentOrders_eq, hq, hurgent]
        rfl
      · rw [hq]
        omega

end

/-! ### The verdict CONDEMNED (R126) -/

/-- The search is over and the machine back in WATCH (R126). -/
def searchOver (s : State) : State := modIso (fun m => { searchEnded m with phase := .watch }) s

theorem verdictCondemned_eq {u : UnitNo} {x : Serial} {s : State} (hx : (getU u s).serial = some x) : verdictCondemned u s
    = addClosings [⟨[.barSerial x, .speakAll], .all⟩] (condemnRecord u x .rogue (searchOver s)) := by
  unfold verdictCondemned
  simp only [hx]
  rfl

/-- One closing offer of urgent orders, with none waiting and room for it, joins the urgent orders of the queue (R119). -/
theorem addClosings_one_urgent {o : ClosingOffer} {s : State} (h : s.lm.iso.closing = []) (hroom : s.tli.queue.length + o.orders.length ≤ 64)
    (ho : ∀ y ∈ o.orders, orderGroup y = 1) : urgentOrders (addClosings [o] s) = urgentOrders s ++ o.orders := by
  rw [addClosings_one_taken h hroom]
  exact closingJoined_urgent (s := countHeld s) ho

theorem condemnedOffer_urgent (x : Serial) :
    ∀ y ∈ (⟨[.barSerial x, .speakAll], .all⟩ : ClosingOffer).orders, orderGroup y = 1 := by simp [orderGroup]

/-! ### Tests (R120) -/

section
variable {n : Nat} {lit : Bool} {s : State}

/-- One more sample of a test (R120). -/
def sampleCounted (lit : Bool) (s : State) : State :=
  modIso (fun m => { m with step := .sampling, samples := m.samples + 1, litSamples := m.litSamples + lit.toNat }) s

theorem testSample_counted (hstep : s.lm.iso.step = .settling ∨ s.lm.iso.step = .sampling) (hlow : 8 ≤ roundsFrom s.lm.iso.carriage n)
    (hhigh : roundsFrom s.lm.iso.carriage n ≤ 11) : testSample n lit s
      = if 3 ≤ s.lm.iso.samples then testResult (sampleCounted lit s) else sampleCounted lit s := by
  unfold testSample
  simp only
  rw [if_pos ⟨hstep, hlow, hhigh⟩]
  have hiff : 4 ≤ s.lm.iso.samples + 1 ↔ 3 ≤ s.lm.iso.samples := by omega
  show (if 4 ≤ s.lm.iso.samples + 1 then testResult (sampleCounted lit s) else sampleCounted lit s) = _
  simp only [hiff]

/-- The test is over (R120). -/
def testOver (s : State) : State := modIso (fun m => { m with step := .idle }) s

theorem testResult_confirm (h : s.lm.iso.phase = .confirm) :
    testResult s = confirmResult (decide (2 ≤ s.lm.iso.litSamples)) (testOver s) := by
  unfold testResult
  simp only [h]
  rfl

theorem testResult_bisect (h : s.lm.iso.phase = .bisect) :
    testResult s = if 2 ≤ s.lm.iso.litSamples then bisectLit (testOver s) else bisectClear (testOver s) := by
  unfold testResult
  simp only [h, decide_eq_true_eq]
  rfl

theorem bisectLit_one {u : UnitNo} (h : s.lm.iso.speak = [u]) : bisectLit s = verdictCondemned u s := by
  unfold bisectLit
  rw [h]

theorem bisectLit_halved (h : 2 ≤ s.lm.iso.speak.length) : bisectLit s = offerStep .hush (modIso (fun m =>
    { m with cand := s.lm.iso.speak, speak := firstHalf s.lm.iso.speak, hush := s.lm.iso.speak.drop ((s.lm.iso.speak.length + 1) / 2) }) s) := by
  unfold bisectLit
  split
  next u hu => rw [hu] at h; simp at h
  next => rfl

theorem bisectClear_last (h : s.lm.iso.cand.filter (fun u => u ∉ s.lm.iso.speak) = []) :
    bisectClear s = verdictUnenrolled (modIso (fun m => { m with cand := [] }) s) := if_pos h

theorem bisectClear_goesOn (h : s.lm.iso.cand.filter (fun u => u ∉ s.lm.iso.speak) ≠ []) : bisectClear s
    = speakHalf (modIso (fun m => { m with cand := s.lm.iso.cand.filter (fun u => u ∉ s.lm.iso.speak) }) s) := if_neg h

theorem confirmResult_clear_none (h : s.lm.iso.hushedSet.filter (fun u => onTree (getU u s)) = []) :
    confirmResult false s = verdictUnenrolled s := if_pos h

theorem confirmResult_clear_some (h : s.lm.iso.hushedSet.filter (fun u => onTree (getU u s)) ≠ []) : confirmResult false s
    = speakHalf (modIso (fun m => { m with cand := s.lm.iso.hushedSet.filter (fun u => onTree (getU u s)) }) s) := if_neg h

/-- The first half of the suspects speaks (R123). -/
theorem speakHalf_writes {c : List UnitNo} (hc : s.lm.iso.cand = c) (hne : c ≠ []) :
    (speakHalf s).lm.iso.phase = .bisect ∧ (speakHalf s).lm.iso.cand = c ∧ (speakHalf s).lm.iso.speak = firstHalf c
      ∧ (speakHalf s).lm.iso.hush = []
      ∧ (s.tli.queue.length + (c.length + 1) / 2 ≤ 64 → urgentOrders (speakHalf s) = urgentOrders s ++ (firstHalf c).map .speakUnit) := by
  subst hc
  let w := modIso (fun m => { m with phase := .bisect, speak := firstHalf m.cand, hush := [] }) s
  obtain ⟨hphase, -, -, hcand, hspeak, hhush⟩ := offerStep_keeps .speak w
  have horders : stepOrders .speak w.lm.iso = (firstHalf s.lm.iso.cand).map .speakUnit := rfl
  refine ⟨hphase, hcand, hspeak, hhush, fun hroom => ?_⟩
  have hlen : (stepOrders .speak w.lm.iso).length = (s.lm.iso.cand.length + 1) / 2 := by
    rw [horders, List.length_map]
    exact firstHalf_length _
  exact (offerStep_taken_writes (s := w) (by rw [horders]; exact fun h => firstHalf_ne_nil hne (List.map_eq_nil_iff.mp h))
    (by rw [hlen]; exact hroom)).1

end

/-- Settles O30: a sample that counts, and then one result of the test for each clause. -/
theorem isolationTestGivesItsResult : Obligations.IsolationTestGivesItsResult := by
  unfold Obligations.IsolationTestGivesItsResult
  intro n readings s k hheld hk1 hk0 hstep hlow hhigh m c d
  have hexec := exec_darkSample (n := n) (readings := readings) hheld
  have hk : k = (isLit (peakLevel readings) s).toNat := by
    by_cases hl : LitOver readings s
    · rw [hk1 hl, (isLit_peakLevel _ _).mpr hl]
      rfl
    · rw [hk0 hl, Bool.eq_false_iff.mpr (mt (isLit_peakLevel _ _).mp hl)]
      rfl
  generalize isLit (peakLevel readings) s = lit at hk hexec
  by_cases hactive : m.phase = .confirm ∨ m.phase = .bisect
  case neg =>
    have hnotConfirm : ¬m.phase = .confirm := fun h => hactive (.inl h)
    have hnotBisect : ¬m.phase = .bisect := fun h => hactive (.inr h)
    exact ⟨_, hexec, fun h => absurd h hactive, fun h => absurd h hnotConfirm, fun h => absurd h hnotConfirm, fun h => absurd h hnotConfirm,
      fun _ _ h => absurd h hnotBisect, fun h => absurd h hnotBisect, fun h => absurd h hnotBisect, fun h => absurd h hnotBisect⟩
  let w := sampleCounted lit (sampleTaken n lit s)
  have hlitSamples : w.lm.iso.litSamples = m.litSamples + k := by rw [hk]; rfl
  have hjudge : judgeDark n lit (sampleTaken n lit s) = if 3 ≤ m.samples then testResult w else w := by
    rw [judgeDark_test (s := sampleTaken n lit s) hactive]
    exact testSample_counted (s := sampleTaken n lit s) hstep hlow hhigh
  rw [hjudge] at hexec
  by_cases hmore : m.samples < 3
  · rw [if_neg (Nat.not_le.mpr hmore)] at hexec
    have hnot : ¬m.samples = 3 := by omega
    refine ⟨_, hexec, fun _ _ => ⟨rfl, rfl, rfl, hlitSamples, rfl, rfl⟩, fun _ h => absurd h hnot, fun _ h => absurd h hnot,
      fun _ h => absurd h hnot, fun _ _ _ h => absurd h hnot, fun _ h => absurd h hnot, fun _ h => absurd h hnot, fun _ h => absurd h hnot⟩
  rw [if_pos (Nat.not_lt.mp hmore)] at hexec
  let v := testOver w
  have hsame : SameSearch s v := ⟨rfl, rfl, rfl, rfl, rfl, rfl⟩
  refine ⟨_, hexec, fun _ h => absurd h hmore, fun hp _ hlit => ?unlocated, fun hp _ hclear hc => ?unenrolled, fun hp _ hclear hc => ?firstStep,
    fun u x hp _ hlit hl hx htree => ?condemned, fun hp _ hlit hl => ?halved, fun hp _ hclear hd => ?lastCleared,
    fun hp _ hclear hd => ?nextStep⟩
  case unlocated =>
    rw [testResult_confirm (s := w) hp, hlitSamples, decide_eq_true hlit]
    exact unlocatedVerdict_verdictUnlocated hsame
  case unenrolled =>
    rw [testResult_confirm (s := w) hp, hlitSamples, decide_eq_false (Nat.not_le.mpr hclear), confirmResult_clear_none (s := v) hc]
    exact unenrolledVerdict_verdictUnenrolled hsame
  case firstStep =>
    rw [testResult_confirm (s := w) hp, hlitSamples, decide_eq_false (Nat.not_le.mpr hclear), confirmResult_clear_some (s := v) hc]
    exact speakHalf_writes rfl hc
  case condemned =>
    have hxv : (getU u v).serial = some x := hx
    rw [testResult_bisect (s := w) hp, hlitSamples, if_pos hlit, bisectLit_one (s := v) hl, verdictCondemned_eq hxv]
    let o := searchOver v
    generalize hr : condemnRecord u x .rogue (searchOver v) = r
    have hcond : Condemned u x s (addClosings [⟨[.barSerial x, .speakAll], .all⟩] r) := by
      have h := (condemned_condemnRecord u x .rogue o).addClosings [⟨[.barSerial x, .speakAll], .all⟩]
      rw [← hr]
      have hsameService : SameService u s o := sameService_of_account rfl rfl rfl rfl
      exact ⟨(otherUnits_of_tables (t := o)).trans h.others, h.barred, fun hi => ⟨(h.retired hi).1.of_same hsameService, (h.retired hi).2⟩,
        fun hn => (h.freed hn).of_state rfl, h.once.earlier rfl⟩
    have hwatch : (markedBar u o).lm.iso.phase = .watch := rfl
    have hmarked : onTree (getU u (markedBar u o)) = true := by rw [getU_markedBar]; exact htree
    have hin : inService (getU u (markedBar u o)) = inService (getU u s) := by rw [getU_markedBar]; rfl
    obtain ⟨hurgent, hretired, hgrown, hfull⟩ := endService_queue_of_watch hwatch hmarked
    have hrtli : r.tli = (endService u (markedBar u o)).tli := by
      rw [← hr]
      exact condemnRecord_tli
    have hriso : r.lm.iso = (searchOver v).lm.iso := by
      rw [← hr, condemnRecord_lm, (endService_keepsView hwatch).iso]
      rfl
    have hclosing : r.lm.iso.closing = m.closing := by rw [hriso]; rfl
    have hrurgent : urgentOrders r = urgentOrders s := by rw [urgentOrders_congr (congrArg TreeLine.queue hrtli), hurgent]; rfl
    have hjoined : m.closing = [] → r.tli.queue.length + 2 ≤ 64 →
        urgentOrders (addClosings [⟨[.barSerial x, .speakAll], .all⟩] r) = urgentOrders s ++ [.barSerial x, .speakAll] := fun hnone hroom => by
      have h := addClosings_one_urgent (hclosing.trans hnone) (o := ⟨[.barSerial x, .speakAll], .all⟩) hroom (condemnedOffer_urgent x)
      rw [h, hrurgent]
    obtain ⟨cl, co, du, hiso⟩ := addClosings_iso (l := [⟨[.barSerial x, .speakAll], .all⟩]) (by simp) r
    refine ⟨hcond.others, hcond.barred, fun hi => ⟨(hcond.retired hi).1, (hcond.retired hi).2, fun hnone hroom => hjoined hnone ?_⟩,
      fun hn => ⟨hcond.freed hn, fun hnone hroom => hjoined hnone ?_⟩, hcond.once, by rw [hiso, hriso]; rfl, by rw [hiso, hriso]; rfl,
      by rw [hiso], fun hnone h64 hnotQueued => ?_⟩
    · have hle : (endService u (markedBar u o)).tli.queue.length ≤ s.tli.queue.length := hretired (hin.trans hi)
      rw [hrtli]
      omega
    · have hle : (endService u (markedBar u o)).tli.queue.length ≤ s.tli.queue.length + 1 := hgrown
      rw [hrtli]
      omega
    · have hq : r.tli.queue = s.tli.queue := by rw [hrtli]; exact hfull h64 hnotQueued
      obtain ⟨due, heq⟩ := addClosings_one_waits (s := r) (o := ⟨[.barSerial x, .speakAll], .all⟩) (.inr (by rw [hq, h64]; simp))
      rw [heq]
      refine ⟨hrurgent, ?_⟩
      show r.lm.iso.closing ++ _ = _
      rw [hclosing, hnone]
      rfl
  case halved =>
    rw [testResult_bisect (s := w) hp, hlitSamples, if_pos hlit, bisectLit_halved (s := v) hl]
    let h := modIso (fun i => { i with cand := m.speak, speak := firstHalf m.speak, hush := m.speak.drop ((m.speak.length + 1) / 2) }) v
    have horders : stepOrders .hush h.lm.iso = (m.speak.drop ((m.speak.length + 1) / 2)).map .hushUnit := rfl
    have hlen : (stepOrders .hush h.lm.iso).length = m.speak.length / 2 := by
      rw [horders, List.length_map, List.length_drop]
      omega
    have hne : stepOrders .hush h.lm.iso ≠ [] := by
      rw [← List.length_pos_iff_ne_nil, hlen]
      omega
    obtain ⟨hphase, -, -, hcand, hspeak, hhush⟩ := offerStep_keeps .hush h
    refine ⟨hphase.trans hp, hcand, hspeak, hhush, fun hroom => ?_⟩
    have hroom' : h.tli.queue.length + (stepOrders .hush h.lm.iso).length ≤ 64 := by rw [hlen]; exact hroom
    refine ⟨(offerStep_taken_writes hne hroom').1, fun u hu => ?_⟩
    show (getU u (offerStep .hush h)).hush = true
    rw [offerStep_taken hne hroom']
    show (getU u (h.lm.iso.hush.foldl (fun t u => modU u (fun r => { r with hush := true }) t)
      (enqueueAll (markedOffer .stepEnd (stepOrders .hush h.lm.iso)) h))).hush = true
    rw [foldl_modU_get _ (fun r => { r with hush := true }) fun _ => rfl, if_pos (show u ∈ h.lm.iso.hush from hu)]
  case lastCleared =>
    rw [testResult_bisect (s := w) hp, hlitSamples, if_neg (Nat.not_le.mpr hclear), bisectClear_last (s := v) hd]
    exact unenrolledVerdict_verdictUnenrolled ⟨rfl, rfl, rfl, rfl, rfl, rfl⟩
  case nextStep =>
    rw [testResult_bisect (s := w) hp, hlitSamples, if_neg (Nat.not_le.mpr hclear), bisectClear_goesOn (s := v) hd]
    obtain ⟨hphase, hcand, hspeak, hhush, -⟩ := speakHalf_writes (s := modIso (fun i => { i with cand := d }) v) rfl hd
    exact ⟨hphase, hcand, hspeak, hhush⟩

end Sys2Proof.Machine

/-!
PROOFS. The outcomes of bursts (O26 to O28).
-/
namespace Sys2Proof.Machine

-- One proof after another, as in the tests: side by side, the proofs of one text hold more stacks than the check's memory has room for.
set_option Elab.async false

/-! ### What a tail charge leaves (R113, R116) -/

section
variable {u : UnitNo} {k : AlarmKind} {s : State}

theorem reRange_keepsSample (u : UnitNo) (s : State) : KeepsSample s (reRange u s) := ⟨rfl, rfl, rfl, rfl⟩

theorem offerBarSerial_keepsSample (x : Serial) (s : State) : KeepsSample s (offerBarSerial x s) := by
  rcases offerBarSerial_cases x s with ⟨-, h⟩ | ⟨-, h⟩ <;> rw [h] <;> exact ⟨rfl, rfl, rfl, rfl⟩

theorem offerBarSerial_otherUnits (u : UnitNo) (x : Serial) (s : State) : OtherUnitsSame u s (offerBarSerial x s) :=
  otherUnits_of_tables offerBarSerial_ut (by rw [offerBarSerial_ucb])

theorem condemnTail_of_serial {x : Serial} (hx : (getU u s).serial = some x) :
    condemnTail u s = condemnRecord u x .tail (offerBarSerial x s) := by
  unfold condemnTail
  rw [hx]

theorem condemnTail_of_none (hx : (getU u s).serial = none) : condemnTail u s = s := by
  unfold condemnTail
  rw [hx]

theorem condemnTail_keepsSample (u : UnitNo) (s : State) : KeepsSample s (condemnTail u s) := by
  cases hx : (getU u s).serial with
  | none =>
    rw [condemnTail_of_none hx]
    exact .refl s
  | some x =>
    rw [condemnTail_of_serial hx]
    exact (offerBarSerial_keepsSample x s).trans (condemnRecord_keepsSample u x .tail _)

theorem condemnTail_otherUnits (u : UnitNo) (s : State) : OtherUnitsSame u s (condemnTail u s) := by
  cases hx : (getU u s).serial with
  | none =>
    rw [condemnTail_of_none hx]
    exact otherUnits_of_tables
  | some x =>
    rw [condemnTail_of_serial hx]
    exact (offerBarSerial_otherUnits u x s).trans (condemned_condemnRecord u x .tail _).others

theorem getK_condemnTail (hk : k ∉ sideKinds) (hr : k ≠ .rogueCondemned) : getK k (condemnTail u s) = getK k s := by
  cases hx : (getU u s).serial with
  | none => rw [condemnTail_of_none hx]
  | some x => rw [condemnTail_of_serial hx, getK_condemnRecord hk hr, getK_offerBarSerial]

/-- What a charge to record `u` leaves: the sample and the Burst Meter, every other record, and the alarms that no tail raises. -/
structure TailCharge (u : UnitNo) (s t : State) : Prop where
  keeps  : KeepsSample s t
  others : OtherUnitsSame u s t
  alarms : ∀ k, k ∉ sideKinds → k ≠ .rogueCondemned → k ≠ .tailRerange → getK k t = getK k s

theorem TailCharge.trans {t v : State} (h : TailCharge u s t) (g : TailCharge u t v) : TailCharge u s v :=
  ⟨h.keeps.trans g.keeps, h.others.trans g.others, fun k hk hr ht => (g.alarms k hk hr ht).trans (h.alarms k hk hr ht)⟩

theorem TailCharge.refl (u : UnitNo) (s : State) : TailCharge u s s := ⟨.refl s, otherUnits_of_tables, fun _ _ _ _ => rfl⟩

theorem modU_tailCharge (u : UnitNo) (f : UnitRecord → UnitRecord) (s : State) : TailCharge u s (modU u f s) :=
  ⟨⟨rfl, rfl, rfl, rfl⟩, modU_otherUnits u f s, fun _ _ _ _ => rfl⟩

theorem tailRerange_charge (u : UnitNo) (s : State) : TailCharge u s (tailRerange u s) := by
  have hoccur : ∀ x (w : State), TailCharge u w (occur .tailRerange x w) := fun x w =>
    ⟨(occur_reports _ _ _).keepsSample, (occur_reports _ _ _).otherUnits u, fun k hk _ ht =>
      getK_occur_other (ne_of_not_sideKind hk).1 ht.symm⟩
  rw [tailRerange_eq]
  refine ((modU_tailCharge u tailsSpent s).trans (hoccur (getU u s).serial _)).trans ?_
  split
  · exact ⟨reRange_keepsSample u _, enterRanging_otherUnits u _ _ _, fun _ _ _ _ => rfl⟩
  · exact ⟨condemnTail_keepsSample u _, condemnTail_otherUnits u _, fun k hk hr _ => getK_condemnTail hk hr⟩

theorem tailSpanStep_charge (u : UnitNo) (s : State) : TailCharge u s (tailSpanStep u s) := by
  unfold tailSpanStep
  split
  · exact modU_tailCharge u _ s
  · exact .refl u s

theorem chargeTail_charge (u : UnitNo) (s : State) : TailCharge u s (chargeTail u s) := by
  unfold chargeTail
  split
  · have hcharged := (tailSpanStep_charge u s).trans (modU_tailCharge u charged _)
    simp only
    split
    · exact hcharged.trans (tailRerange_charge u _)
    · exact hcharged
  · exact .refl u s

end

/-! ### The outcome of a grant (R94) -/

/-- The findings of a grant have been handed over (R93). -/
def findingsTaken (n : Nat) (u : UnitNo) (s : State) : State := modGrant n u (fun g => { g with answered := true }) s

section
variable {n : Nat} {u : UnitNo} {g : GrantRecord} {b : Burst} {found : Option Burst} {s : State}

theorem AwaitsFindings.unit (h : AwaitsFindings n u g s) : g.unit = u.val := by
  obtain ⟨p, -, hg, -⟩ := h
  have := List.find?_some hg
  simp only [Bool.and_eq_true, beq_iff_eq] at this
  exact this.2

theorem exec_burstClassify (hheld : s.held = false) (h : AwaitsFindings n u g s) :
    exec (.burstClassify n u found) s = .next (applyOutcome u g found (findingsTaken n u s)) := by
  obtain ⟨p, hp, hg, hnew⟩ := h
  refine (unlessHeld_of_not_held hheld _).trans ?_
  simp only [burstStep, hp, hg, hnew, Bool.false_eq_true, if_false]
  rfl

theorem foundIn_of_in {first length : Nat} (h : DelimiterIn first length b) : foundIn first length (some b) = some b := if_pos h

theorem foundIn_of_out {first length : Nat} (h : ∀ b, found = some b → ¬DelimiterIn first length b) : foundIn first length found = none := by
  cases found with
  | none => rfl
  | some b => exact if_neg (h b rfl)

theorem outcomeOf_in (h : DelimiterIn g.start g.length b) : outcomeOf g (some b) = outcomeFound g b := by
  unfold outcomeOf
  rw [foundIn_of_in h]

theorem outcomeOf_missing (h : ∀ b, found = some b → ¬DelimiterIn g.start g.length b) : outcomeOf g found = .missing := by
  unfold outcomeOf
  rw [foundIn_of_out h]

/-- The tests of R94 in their order, one after the other. -/
theorem outcomeFound_wrongUnit (h : headerOk b.header = true) (hu : b.header.unit.toNat ≠ g.unit) :
    outcomeFound g b = .wrongUnit b.header.unit.toNat := by
  unfold outcomeFound
  rw [if_pos (by simp [h, hu])]

theorem outcomeFound_ownUnit (h : headerOk b.header = false ∨ b.header.unit.toNat = g.unit) : outcomeFound g b
    = if 64 < (burstDelta g.start b).natAbs then .misaligned
      else if !headerOk b.header || decide (b.header.kind.toNat ≠ g.kind.code)
        || decide (4 * grantPayload g < b.header.dlen.toNat) || !burstOk (grantPayload g) b then .errored
      else .valid := by
  unfold outcomeFound
  rw [if_neg (by rcases h with h | h <;> simp [h])]

theorem outcomeFound_misaligned (h : headerOk b.header = false ∨ b.header.unit.toNat = g.unit)
    (hd : 64 < (burstDelta g.start b).natAbs) : outcomeFound g b = .misaligned := by
  rw [outcomeFound_ownUnit h, if_pos hd]

theorem outcomeOf_errored (h : ErroredOn g b) : outcomeOf g (some b) = .errored := by
  obtain ⟨hin, hunit, hd, htest⟩ := h
  rw [outcomeOf_in hin, outcomeFound_ownUnit hunit, if_neg (Nat.not_lt.mpr hd), if_pos]
  simp only [Bool.or_eq_true, Bool.not_eq_true', decide_eq_true_eq]
  rcases htest with h | h | h | h
  · exact .inl (.inl (.inl h))
  · exact .inl (.inl (.inr h))
  · exact .inl (.inr h)
  · exact .inr h

theorem outcomeOf_valid (h : ValidOn g b) : outcomeOf g (some b) = .valid := by
  obtain ⟨hin, hheader, hunit, hd, hkind, hlen, hcheck⟩ := h
  have hpay : burstOk (grantPayload g) b = true := hcheck
  have hfits : b.header.dlen.toNat ≤ 4 * grantPayload g := hlen
  rw [outcomeOf_in hin, outcomeFound_ownUnit (.inr hunit), if_neg (Nat.not_lt.mpr hd), if_neg]
  simp [hheader, hkind, hpay, hfits]

theorem applyOutcome_failed (h : (∀ b, found = some b → ¬DelimiterIn g.start g.length b) ∨ ∃ b, found = some b ∧ ErroredOn g b) :
    applyOutcome u g found s = failedOutcome u g s := by
  unfold applyOutcome
  rcases h with h | ⟨b, rfl, h⟩
  · rw [outcomeOf_missing h]
  · rw [outcomeOf_errored h]

theorem applyOutcome_wrongUnit (h : WrongUnitOn g b) :
    applyOutcome u g (some b) s = chargeNamed b.header.unit.toNat (failedOutcome u g s) := by
  obtain ⟨hin, hheader, hunit⟩ := h
  unfold applyOutcome
  rw [outcomeOf_in hin, outcomeFound_wrongUnit hheader hunit]

theorem applyOutcome_misaligned (hin : DelimiterIn g.start g.length b) (h : headerOk b.header = false ∨ b.header.unit.toNat = g.unit)
    (hd : 64 < (burstDelta g.start b).natAbs) : applyOutcome u g (some b) s = misalignedOutcome u g s := by
  unfold applyOutcome
  rw [outcomeOf_in hin, outcomeFound_misaligned h hd]

theorem applyOutcome_valid (h : ValidOn g b) : applyOutcome u g (some b) s = validOutcome u g b s := by
  unfold applyOutcome
  rw [outcomeOf_valid h]

end

/-! ### Failed grants (R99 to R102) -/

/-- O falls by the grant's payload (R107). -/
def lowered (g : GrantRecord) (r : UnitRecord) : UnitRecord := { r with outstanding := r.outstanding - (g.pc + g.pe) }

/-- The record goes to LOST (R31). -/
def sentLost (r : UnitRecord) : UnitRecord := { r with state := .lost, lostHold := 240000, poll := 64 }

/-- One silent grant more (R102). -/
def silenced (r : UnitRecord) : UnitRecord := { r with silent := min 16 (r.silent + 1) }

section
variable {u : UnitNo} {g : GrantRecord} {s : State}

theorem failedOutcome_lit (htree : onTree (getU u s) = true) (hlit : s.lm.lastDark = true) : failedOutcome u g s
    = { modU u (lowered g) s with bm := { s.bm with interfered := min 4294967295 (s.bm.interfered + 1) } } := by
  unfold failedOutcome
  rw [if_pos htree]
  exact if_pos hlit

theorem failedOutcome_dark (htree : onTree (getU u s) = true) (hdark : s.lm.lastDark = false) : failedOutcome u g s
    = if (getU u s).state = .active ∧ 15 ≤ (getU u s).silent then enterLost u (modU u (fun r => silenced (lowered g r)) s)
      else modU u (fun r => silenced (lowered g r)) s := by
  have hU : getU u (modU u silenced (modU u (lowered g) s)) = silenced (lowered g (getU u s)) := by
    rw [getU_modU_same, getU_modU_same]
  have hdark' : ¬(lowerOutstanding u g s).lm.lastDark = true := by
    show ¬s.lm.lastDark = true
    simp [hdark]
  have hstep : failedOutcome u g s = if (getU u (modU u silenced (modU u (lowered g) s))).state = .active
        ∧ (getU u (modU u silenced (modU u (lowered g) s))).silent = 16
      then enterLost u (modU u silenced (modU u (lowered g) s)) else modU u silenced (modU u (lowered g) s) :=
    (if_pos htree).trans (if_neg hdark')
  have hcount : (silenced (lowered g (getU u s))).silent = 16 ↔ 15 ≤ (getU u s).silent := by
    show min 16 ((getU u s).silent + 1) = 16 ↔ _
    omega
  rw [hstep, hU, modU_modU]
  simp only [hcount]
  rfl

theorem failedOutcome_retiring (h : (getU u s).state = .retiring) : failedOutcome u g s = modU u (lowered g) s := by
  have hoff : onTree (getU u s) = false := by simp [onTree, h]
  unfold failedOutcome
  rw [hoff, if_neg Bool.false_ne_true, if_pos h]
  rfl

/-- A failed grant writes the record and the interfered count, and beyond them reports alone. -/
theorem failedOutcome_writes (u : UnitNo) (g : GrantRecord) (s : State) :
    ∃ f m, OnlyReports { modU u f s with bm := m } (failedOutcome u g s) := by
  by_cases htree : onTree (getU u s) = true
  · cases hdark : s.lm.lastDark with
    | true =>
      rw [failedOutcome_lit htree hdark]
      exact ⟨lowered g, _, .refl _⟩
    | false =>
      rw [failedOutcome_dark htree hdark]
      split
      · refine ⟨fun r => sentLost (silenced (lowered g r)), s.bm, ?_⟩
        have h := occur_reports .unitLost (getU u (modU u (fun r => silenced (lowered g r)) s)).serial
          (modU u sentLost (modU u (fun r => silenced (lowered g r)) s))
        rw [modU_modU] at h
        unfold enterLost
        rw [modU_modU]
        exact h
      · exact ⟨fun r => silenced (lowered g r), s.bm, .refl _⟩
  · by_cases hr : (getU u s).state = .retiring
    · rw [failedOutcome_retiring hr]
      exact ⟨lowered g, s.bm, .refl _⟩
    · have hsame : failedOutcome u g s = s := (if_neg htree).trans (if_neg hr)
      rw [hsame]
      refine ⟨fun r => r, s.bm, ?_⟩
      rw [modU_id]
      exact .refl _

theorem failedOutcome_otherUnits (u : UnitNo) (g : GrantRecord) (s : State) : OtherUnitsSame u s (failedOutcome u g s) := by
  obtain ⟨f, m, r⟩ := failedOutcome_writes u g s
  exact (modU_otherUnits u f s).trans ((otherUnits_of_tables (t := { modU u f s with bm := m })).trans (r.otherUnits u))

theorem getK_failedOutcome {k : AlarmKind} (hk : k ≠ .outboxOverflow) (hl : k ≠ .unitLost) :
    getK k (failedOutcome u g s) = getK k s := by
  unfold failedOutcome countFailure
  simp only
  split
  · split
    · rfl
    · split
      · exact getK_occur_other hk hl.symm
      · rfl
  · split <;> rfl

/-- Only the 16th silent grant of an ACTIVE record raises an alarm (R31). -/
theorem failedOutcome_alarms (h : (getU u s).state ≠ .active ∨ s.lm.lastDark = true ∨ (getU u s).silent < 15) :
    (failedOutcome u g s).alarms = s.alarms := by
  by_cases htree : onTree (getU u s) = true
  · cases hdark : s.lm.lastDark with
    | true => rw [failedOutcome_lit htree hdark]; rfl
    | false =>
      rw [failedOutcome_dark htree hdark, if_neg]
      · rfl
      · rintro ⟨hactive, hmany⟩
        rcases h with h | h | h
        · exact h hactive
        · rw [hdark] at h; cases h
        · omega
  · by_cases hr : (getU u s).state = .retiring
    · rw [failedOutcome_retiring hr]; rfl
    · exact congrArg State.alarms ((if_neg htree).trans (if_neg hr))

/-- What a failed grant does by the record's state. -/
theorem grantFailed_failedOutcome (u : UnitNo) (g : GrantRecord) (s : State) : GrantFailed u g s (failedOutcome u g s) := by
  by_cases htree : onTree (getU u s) = true
  · have hoff : ¬((getU u s).state = .free ∨ (getU u s).state = .claiming) := by
      rintro (h | h) <;> simp [onTree, h] at htree
    have hretiring : (getU u s).state ≠ .retiring := by
      intro h
      simp [onTree, h] at htree
    cases hdark : s.lm.lastDark with
    | true =>
      have hU : getU u (failedOutcome u g s) = lowered g (getU u s) := by
        rw [failedOutcome_lit htree hdark]
        exact getU_modU_same _ _ _
      have hA : getA u (failedOutcome u g s) = getA u s := by rw [failedOutcome_lit htree hdark]; rfl
      have hup : (failedOutcome u g s).tli.upstream = s.tli.upstream := by rw [failedOutcome_lit htree hdark]; rfl
      have hbm : (failedOutcome u g s).bm.interfered = min 4294967295 (s.bm.interfered + 1) := by rw [failedOutcome_lit htree hdark]
      unfold GrantFailed
      rw [hU, hA]
      exact ⟨rfl, rfl, rfl, rfl, rfl, hup, fun h => absurd h hoff, fun h => absurd h hretiring, fun _ =>
        ⟨rfl, fun _ => ⟨hbm, rfl, rfl⟩, fun h => absurd h (by simp [hdark])⟩⟩
    | false =>
      have hnotLit : ¬s.lm.lastDark = true := by rw [hdark]; exact Bool.false_ne_true
      by_cases hlost : (getU u s).state = .active ∧ 15 ≤ (getU u s).silent
      · have hstep := (failedOutcome_dark (g := g) htree hdark).trans (if_pos hlost)
        have r : OnlyReports (modU u sentLost (modU u (fun r => silenced (lowered g r)) s))
            (enterLost u (modU u (fun r => silenced (lowered g r)) s)) := occur_reports .unitLost _ _
        have hU : getU u (enterLost u (modU u (fun r => silenced (lowered g r)) s)) = sentLost (silenced (lowered g (getU u s))) := by
          rw [r.getU, getU_modU_same, getU_modU_same]
        have honce : OccurredOnce .unitLost s (enterLost u (modU u (fun r => silenced (lowered g r)) s)) :=
          (occurredOnce_occur (by decide)).earlier rfl
        rw [hstep]
        unfold GrantFailed
        rw [hU, r.live, r.tli, r.bm]
        exact ⟨rfl, rfl, rfl, rfl, rfl, rfl, fun h => absurd h hoff, fun h => absurd h hretiring, fun _ =>
          ⟨rfl, fun h => absurd h hnotLit, fun _ => ⟨rfl, rfl, fun _ _ => ⟨rfl, rfl, rfl, honce⟩, fun h => by
            obtain ⟨hactive, hmany⟩ := hlost
            rcases h with h | h
            · exact absurd hactive h
            · omega⟩⟩⟩
      · have hstep := (failedOutcome_dark (g := g) htree hdark).trans (if_neg hlost)
        have hU : getU u (modU u (fun r => silenced (lowered g r)) s) = silenced (lowered g (getU u s)) := getU_modU_same _ _ _
        rw [hstep]
        unfold GrantFailed
        rw [hU]
        exact ⟨rfl, rfl, rfl, rfl, rfl, rfl, fun h => absurd h hoff, fun h => absurd h hretiring, fun _ =>
          ⟨rfl, fun h => absurd h hnotLit, fun _ => ⟨rfl, rfl, fun h h15 => absurd ⟨h, h15⟩ hlost, fun _ => ⟨rfl, rfl⟩⟩⟩⟩
  · by_cases hr : (getU u s).state = .retiring
    · rw [failedOutcome_retiring hr]
      unfold GrantFailed
      rw [getU_modU_same]
      exact ⟨rfl, rfl, rfl, rfl, rfl, rfl, fun h => by simp [hr] at h, fun _ => ⟨rfl, rfl⟩, fun h => absurd h htree⟩
    · rw [show failedOutcome u g s = s from (if_neg htree).trans (if_neg hr)]
      exact ⟨rfl, rfl, rfl, rfl, rfl, rfl, fun _ => ⟨rfl, rfl⟩, fun h => absurd h hr, fun h => absurd h htree⟩

theorem GrantFailed.later {t v : State} (h : GrantFailed u g s t) (hU : getU u v = getU u t) (hA : (getA u v).live = (getA u t).live)
    (hup : v.tli.upstream = t.tli.upstream) (hbm : v.bm = t.bm) (hk : getK .unitLost v = getK .unitLost t) : GrantFailed u g s v := by
  unfold GrantFailed OccurredOnce at *
  rwa [hU, hA, hup, hbm, hk]

end

/-- A fourth tail event told from an earlier state with the same record, account and queues. -/
theorem FourthTail.of_same {v : UnitNo} {x : Serial} {s s' t : State} (h : FourthTail v x s' t) (hU : getU v s' = getU v s)
    (hs : SameService v s s') (htli : s'.tli = s.tli) (hranging : s'.ec.rangingQueue = s.ec.rangingQueue)
    (htail : getK .tailRerange s' = getK .tailRerange s) (hrogue : getK .rogueCondemned s' = getK .rogueCondemned s) :
    FourthTail v x s t := by
  unfold FourthTail RangesAgain at *
  rw [hU, hranging, htli] at h
  obtain ⟨honce, hevents, hspan, hreranges, hfew, hmany⟩ := h
  refine ⟨honce.earlier htail, hevents, hspan, hreranges, hfew, fun h => ?_⟩
  obtain ⟨hleft, hbar, hbarred, hcondemned, hroom, hfull⟩ := hmany h
  exact ⟨hleft.of_same hs, hbar, hbarred, hcondemned.earlier hrogue, hroom, hfull⟩

/-- Settles O27: what the failure does to the grant's own record, and then the tail charge to the unit that the burst names. -/
theorem failedGrantCountsSilence : Obligations.FailedGrantCountsSilence := by
  unfold Obligations.FailedGrantCountsSilence
  refine ⟨fun n u found s g hheld hawaits hfound => ?_, fun n u b s g hheld hawaits hwrong => ?_⟩
  · have hexec := exec_burstClassify (found := found) hheld hawaits
    rw [applyOutcome_failed hfound] at hexec
    exact ⟨_, hexec, grantFailed_failedOutcome u g (findingsTaken n u s), failedOutcome_otherUnits u g (findingsTaken n u s),
      failedOutcome_alarms (s := findingsTaken n u s)⟩
  · have hexec := exec_burstClassify (found := some b) hheld hawaits
    rw [applyOutcome_wrongUnit hwrong] at hexec
    let j := findingsTaken n u s
    let f := failedOutcome u g j
    have hfailed : GrantFailed u g s f := grantFailed_failedOutcome u g j
    have hother : OtherUnitsSame u s f := failedOutcome_otherUnits u g j
    obtain ⟨-, -, hunit⟩ := hwrong
    rw [hawaits.unit] at hunit
    refine ⟨_, hexec, ?_⟩
    by_cases hnamed : ∃ v : UnitNo, b.header.unit.toNat = v.val
    case neg =>
      have hidle : chargeNamed b.header.unit.toNat f = f := by
        have hnone : unitOf b.header.unit.toNat = none := by
          unfold unitOf
          rw [dif_neg]
          exact fun h => hnamed ⟨⟨_, h⟩, rfl⟩
        unfold chargeNamed
        rw [hnone]
      rw [hidle]
      exact ⟨hfailed, fun w hw _ => hother w hw, fun v hv => absurd ⟨v, hv⟩ hnamed⟩
    case pos =>
      obtain ⟨v, hv⟩ := hnamed
      have hvu : v ≠ u := fun h => hunit (by rw [hv, h])
      have hUv : getU v f = getU v s := (hother v hvu).1
      have hcharge := chargeTail_charge v f
      obtain ⟨hUu, hAu, -⟩ := hcharge.others u hvu.symm
      rw [hv, chargeNamed_unit]
      refine ⟨hfailed.later hUu hAu hcharge.keeps.upstream hcharge.keeps.bm (hcharge.alarms _ (by decide) (by decide) (by decide)),
        fun w hwu hwv => ?_, fun v' hv' => ?_⟩
      · have hwv : w ≠ v := fun h => hwv (by rw [h])
        obtain ⟨hU₁, hl₁, ht₁⟩ := hother w hwu
        obtain ⟨hU₂, hl₂, ht₂⟩ := hcharge.others w hwv
        exact ⟨hU₂.trans hU₁, hl₂.trans hl₁, ht₂.trans ht₁⟩
      · obtain rfl : v = v' := Fin.ext hv'
        refine ⟨fun hidle => ?_, fun hserves hspan => ⟨fun hfew => ?_, fun x hevents hx => ?_⟩⟩
        · rw [chargeTail_idle (by rw [hUv]; exact hidle), hUv]
        · rw [chargeTail_serving (by rw [hUv]; exact hserves) (by rw [hUv]; exact hspan), if_neg (by rw [hUv]; omega), getU_modU_same, hUv]
        · obtain ⟨hfourth, -, -⟩ := fourthTail_chargeTail (u := v) (x := x) (s := f) (by rw [hUv]; exact hserves) (by rw [hUv]; exact hspan)
            (by rw [hUv]; exact hevents) (by rw [hUv]; exact hx)
          obtain ⟨w, m, r⟩ := failedOutcome_writes u g j
          have hsame : SameService v s { modU u w j with bm := m } := by
            have hU : getU v { modU u w j with bm := m } = getU v s := (getU_modU u v w j).trans (if_neg hvu.symm)
            exact sameService_of_account rfl (by rw [hU]) (by rw [hU]) (by rw [hU])
          exact hfourth.of_same hUv (hsame.trans (r.search.sameService v)) (r.tli.trans rfl) (by rw [r.ec]; rfl)
            (getK_failedOutcome (by decide) (by decide)) (getK_failedOutcome (by decide) (by decide))

end Sys2Proof.Machine

/-!
PROOFS. MISALIGNED and VALID bursts (O26, O28).
-/
namespace Sys2Proof.Machine

-- One proof after another, as in the tests: side by side, the proofs of one text hold more stacks than the check's memory has room for.
set_option Elab.async false

/-! ### Misaligned bursts (R104 to R106) -/

/-- One misalignment more (R104). -/
def misaligned (g : GrantRecord) (r : UnitRecord) : UnitRecord := { lowered g r with streak := min 2 (r.streak + 1) }

section
variable {u : UnitNo} {g : GrantRecord} {s : State}

theorem onTree_states (h : onTree (getU u s) = true) : (getU u s).state = .active ∨ (getU u s).state = .lost ∨ (getU u s).state = .ranging := by
  revert h
  simp only [onTree]
  cases (getU u s).state <;> simp

theorem onTree_of_serves (h : serves (getU u s) = true) : onTree (getU u s) = true := by
  revert h
  simp only [onTree, serves]
  cases (getU u s).state <;> simp

theorem serves_iff : serves (getU u s) = true ↔ (getU u s).state = .active ∨ (getU u s).state = .lost := by
  simp [serves]

/-- The occurrence of MISALIGNED, before the record may be ranged again (R104). -/
def misalignedCounted (u : UnitNo) (g : GrantRecord) (s : State) : State :=
  occur .misaligned (getU u s).serial (modU u (misaligned g) s)

theorem getU_misalignedCounted : getU u (misalignedCounted u g s) = misaligned g (getU u s) :=
  ((occur_reports _ _ _).getU u).trans (getU_modU_same _ _ _)

theorem misalignedOutcome_tree (h : onTree (getU u s) = true) : misalignedOutcome u g s
    = if serves (getU u s) = true ∧ 1 ≤ (getU u s).streak then reRange u (misalignedCounted u g s) else misalignedCounted u g s := by
  have hstep : misalignedOutcome u g s = if (serves (getU u (misalignedCounted u g s))
      && decide (2 ≤ (getU u (misalignedCounted u g s)).streak)) = true then reRange u (misalignedCounted u g s)
      else misalignedCounted u g s := by
    refine (if_pos h).trans ?_
    simp only [lowerOutstanding, modU_modU]
    rfl
  have hcount : (misaligned g (getU u s)).streak = min 2 ((getU u s).streak + 1) := rfl
  have hstreak : 2 ≤ (misaligned g (getU u s)).streak ↔ 1 ≤ (getU u s).streak := by
    rw [hcount]
    omega
  have hserves : serves (misaligned g (getU u s)) = serves (getU u s) := rfl
  rw [hstep, getU_misalignedCounted, hserves]
  simp only [Bool.and_eq_true, decide_eq_true_eq, hstreak]

theorem misalignedOutcome_retiring (h : (getU u s).state = .retiring) : misalignedOutcome u g s = modU u (lowered g) s := by
  have hoff : onTree (getU u s) = false := by simp [onTree, h]
  unfold misalignedOutcome
  rw [hoff, if_neg Bool.false_ne_true, if_pos h]
  rfl

end

/-- Settles O28: MISALIGNED is counted on a record on the tree, and a serving one with a streak is ranged again behind it. -/
theorem misalignedBurstRangesAgain : Obligations.MisalignedBurstRangesAgain := by
  unfold Obligations.MisalignedBurstRangesAgain
  intro n u b s g hheld hawaits hin hheader hdelta
  have hexec := exec_burstClassify (found := some b) hheld hawaits
  have hunit : headerOk b.header = false ∨ b.header.unit.toNat = g.unit := by rwa [hawaits.unit]
  rw [applyOutcome_misaligned hin hunit hdelta] at hexec
  let j := findingsTaken n u s
  by_cases htree : onTree (getU u s) = true
  case neg =>
    have hidle : ¬serves (getU u s) = true := fun h => htree (onTree_of_serves h)
    have hnotRanging : (getU u s).state ≠ .ranging := fun h => htree (by simp [onTree, h])
    by_cases hr : (getU u s).state = .retiring
    · rw [misalignedOutcome_retiring (s := findingsTaken n u s) hr] at hexec
      exact ⟨_, hexec, rfl, rfl, rfl, modU_otherUnits u (lowered g) j, fun h => by simp [hr] at h, fun _ => ⟨getU_modU_same _ _ _, rfl⟩,
        fun h => absurd h htree, fun h => absurd h hnotRanging, fun h => absurd h hidle⟩
    · have hsame : misalignedOutcome u g j = j := (if_neg htree).trans (if_neg hr)
      rw [hsame] at hexec
      exact ⟨_, hexec, rfl, rfl, rfl, otherUnits_of_tables (t := j), fun _ => rfl, fun h => absurd h hr,
        fun h => absurd h htree, fun h => absurd h hnotRanging, fun h => absurd h hidle⟩
  case pos =>
    have hstates := onTree_states htree
    have hoff : ¬((getU u s).state = .free ∨ (getU u s).state = .claiming) := by
      rcases hstates with h | h | h <;> simp [h]
    have hretiring : (getU u s).state ≠ .retiring := by
      rcases hstates with h | h | h <;> simp [h]
    let c := misalignedCounted u g j
    have r : OnlyReports (modU u (misaligned g) j) c := occur_reports _ _ _
    have hU : getU u c = misaligned g (getU u s) := getU_misalignedCounted (s := j)
    have honce : OccurredOnce .misaligned s c := (occurredOnce_occur (by decide)).earlier rfl
    have hother : OtherUnitsSame u s c := (modU_otherUnits u (misaligned g) j).trans (r.otherUnits u)
    have hstep : misalignedOutcome u g (findingsTaken n u s)
        = if serves (getU u s) = true ∧ 1 ≤ (getU u s).streak then reRange u c else c := misalignedOutcome_tree (s := j) htree
    rw [hstep] at hexec
    by_cases hagain : serves (getU u s) = true ∧ 1 ≤ (getU u s).streak
    · rw [if_pos hagain] at hexec
      obtain ⟨hserves, hstreak⟩ := hagain
      have hUr : getU u (reRange u c) = rangingRecord true (getU u c).eqd (getU u c) :=
        (getU_enterRanging _ _ _ _ _).trans (if_pos rfl)
      have hranges : RangesAgain u (getU u c).eqd c (reRange u c) := rangesAgain_enterRanging u _ c
      have hnotRanging : (getU u s).state ≠ .ranging := by
        rcases serves_iff.mp hserves with h | h <;> simp [h]
      refine ⟨_, hexec, r.live u, r.bm, r.tli, hother.trans (enterRanging_otherUnits u _ _ _), fun h => absurd h hoff,
        fun h => absurd h hretiring, fun _ => ?_, fun h => absurd h hnotRanging, fun _ => ⟨fun h0 => by omega, fun _ => ?_⟩⟩
      · show (getU u (reRange u c)).outstanding = _ ∧ (getU u (reRange u c)).streak = _ ∧ (getU u (reRange u c)).silent = _
          ∧ (getU u (reRange u c)).report = _ ∧ (getU u (reRange u c)).level = _ ∧ OccurredOnce .misaligned s (reRange u c)
        rw [hUr, hU]
        exact ⟨rfl, rfl, rfl, rfl, rfl, honce.later rfl⟩
      · unfold RangesAgain at hranges ⊢
        rw [hU, r.ec] at hranges
        exact hranges
    · rw [if_neg hagain] at hexec
      refine ⟨_, hexec, r.live u, r.bm, r.tli, hother, fun h => absurd h hoff, fun h => absurd h hretiring, fun _ => ?_, fun h => ?_,
        fun hserves => ⟨fun _ => ?_, fun h1 => absurd ⟨hserves, h1⟩ hagain⟩⟩
      · show (getU u c).outstanding = _ ∧ (getU u c).streak = _ ∧ (getU u c).silent = _ ∧ (getU u c).report = _ ∧ (getU u c).level = _
          ∧ OccurredOnce .misaligned s c
        rw [hU]
        exact ⟨rfl, rfl, rfl, rfl, rfl, honce⟩
      · show (getU u c).state = _ ∧ (getU u c).provEqd = _ ∧ c.ec.rangingQueue = _
        rw [hU, r.ec]
        exact ⟨h, rfl, rfl⟩
      · show (getU u c).state = _
        rw [hU]
        rfl

/-! ### Drift (R66) -/

section
variable {u : UnitNo} {q : Nat} {d : Int} {s t v : State}

/-- The correction of R66 is due. -/
def Corrects (u : UnitNo) (d : Int) (s : State) : Prop :=
  9 ≤ d.natAbs ∧ (getU u s).corrHold = 0 ∧ ∀ y ∈ s.tli.queue, isEqdFor u y.order = false

/-- What a correction leaves: the accounts, the band and the backhaul, every other record, and of the record all but its EqD and
its correction hold. -/
structure KeepsBurst (u : UnitNo) (s t : State) : Prop where
  upstream : t.tli.upstream = s.tli.upstream
  band     : t.ucb.band = s.ucb.band
  live     : (getA u t).live = (getA u s).live
  others   : OtherUnitsSame u s t
  record   : ∃ e h, getU u t = { getU u s with eqd := e, corrHold := h }

theorem KeepsBurst.trans (h : KeepsBurst u s t) (k : KeepsBurst u t v) : KeepsBurst u s v where
  upstream := k.upstream.trans h.upstream
  band := k.band.trans h.band
  live := k.live.trans h.live
  others := h.others.trans k.others
  record := by
    obtain ⟨e, c, hr⟩ := h.record
    obtain ⟨e', c', hr'⟩ := k.record
    exact ⟨e', c', by rw [hr', hr]⟩

theorem KeepsBurst.refl (u : UnitNo) (s : State) : KeepsBurst u s s := ⟨rfl, rfl, rfl, otherUnits_of_tables, _, _, rfl⟩

theorem OnlyReports.keepsBurst (r : OnlyReports s t) : KeepsBurst u s t :=
  ⟨by rw [r.tli], r.band, r.live u, r.otherUnits u, _, _, r.getU u⟩

theorem offerEqd_keepsBurst : KeepsBurst u s (offerEqd u q s) := by
  rcases offerEqd_cases u q s with ⟨-, h⟩ | ⟨-, h⟩ <;> rw [h]
  · exact ⟨rfl, rfl, rfl, modU_otherUnits u _ _, _, _, getU_modU_same _ _ _⟩
  · exact .refl u s

/-- The occurrence that goes with a correction past an edge of the reach (R66). -/
def edgeNoted (u : UnitNo) (q : Nat) (d : Int) (s : State) : State :=
  if passesEdge s.sc.reach q d then occur .reachEdge (getU u s).serial s else s

theorem edgeNoted_reports : OnlyReports s (edgeNoted u q d s) := by
  unfold edgeNoted
  split
  · exact occur_reports _ _ _
  · exact .refl s

theorem driftStep_idle (h : serves (getU u s) = false) : driftStep u d s = s := by
  unfold driftStep
  simp only
  split
  · rfl
  · rw [if_neg (by simp [h])]

theorem eqdQueued_eq_false_iff : eqdQueued u s = false ↔ ∀ y ∈ s.tli.queue, isEqdFor u y.order = false := by
  simp [eqdQueued]

theorem driftStep_serving (h : serves (getU u s) = true) (hq : (getU u s).eqd = some q) (hd : d.natAbs ≤ 64) :
    (¬Corrects u d s → driftStep u d s = s)
      ∧ (Corrects u d s → driftStep u d s = if correctedEqd s.sc.reach q d = q then edgeNoted u q d s
          else offerEqd u (correctedEqd s.sc.reach q d) (edgeNoted u q d s)) := by
  have hcond : (serves (getU u s) && decide (9 ≤ d.natAbs) && decide (d.natAbs ≤ 64) && decide ((getU u s).corrHold = 0)
      && !eqdQueued u s) = true ↔ Corrects u d s := by
    simp only [h, Bool.and_eq_true, decide_eq_true_eq, Bool.not_eq_true', eqdQueued_eq_false_iff, Corrects, hd, and_true, true_and,
      and_assoc]
  unfold driftStep
  simp only [hq]
  exact ⟨fun hno => if_neg (mt hcond.mp hno), fun hc => if_pos (hcond.mpr hc)⟩

theorem driftStep_keepsBurst (u : UnitNo) (d : Int) (s : State) : KeepsBurst u s (driftStep u d s) := by
  have hnoted : ∀ q, KeepsBurst u s (edgeNoted u q d s) := fun q => edgeNoted_reports.keepsBurst
  unfold driftStep
  simp only
  split
  · exact .refl u s
  next q hq =>
    split
    · split
      · exact hnoted q
      · exact (hnoted q).trans offerEqd_keepsBurst
    · exact .refl u s

theorem getK_offerEqd (k : AlarmKind) : getK k (offerEqd u q s) = getK k s := by
  rcases offerEqd_cases u q s with ⟨-, h⟩ | ⟨-, h⟩ <;> rw [h]
  rfl

end

/-! ### Valid bursts (R33, R96 to R98, R106) -/

/-- The record once a VALID burst has been written into it. -/
def burstTaken (g : GrantRecord) (b : Burst) (r : UnitRecord) : UnitRecord := returnFromLost (validRecord g b r)

section
variable {u : UnitNo} {g : GrantRecord} {b : Burst} {r : UnitRecord} {s : State}

theorem burstTaken_lost (h : r.state = .lost) : burstTaken g b r = { validRecord g b r with state := .active, lostHold := 0, poll := 8 } :=
  if_pos h

theorem burstTaken_other (h : r.state ≠ .lost) : burstTaken g b r = validRecord g b r := if_neg h

theorem burstTaken_writes (g : GrantRecord) (b : Burst) (r : UnitRecord) :
    (burstTaken g b r).report = b.header.report.toNat ∧ (burstTaken g b r).outstanding = r.outstanding - (g.pc + g.pe)
      ∧ (burstTaken g b r).silent = 0 ∧ (burstTaken g b r).streak = 0
      ∧ ((burstTaken g b r).level : Int) = r.level + ((meanLevel b.preamble : Int) - r.level) / 8
      ∧ (burstTaken g b r).credit = r.credit ∧ (burstTaken g b r).serial = r.serial ∧ (burstTaken g b r).eqd = r.eqd
      ∧ (burstTaken g b r).corrHold = r.corrHold ∧ serves (burstTaken g b r) = serves r := by
  have hlevel : ((validRecord g b r).level : Int) = r.level + ((meanLevel b.preamble : Int) - r.level) / 8 := by
    show ((((r.level : Int) + ((meanLevel b.preamble : Int) - r.level) / 8).toNat : Nat) : Int) = _
    omega
  by_cases h : r.state = .lost
  · rw [burstTaken_lost h]
    exact ⟨rfl, rfl, rfl, rfl, hlevel, rfl, rfl, rfl, rfl, by simp [serves, h]⟩
  · rw [burstTaken_other h]
    exact ⟨rfl, rfl, rfl, rfl, hlevel, rfl, rfl, rfl, rfl, rfl⟩

theorem burstTaken_active (h : serves r = true) : (burstTaken g b r).state = .active := by
  by_cases hl : r.state = .lost
  · rw [burstTaken_lost hl]
  · rw [burstTaken_other hl]
    show r.state = .active
    simpa [serves, hl] using h

/-- The record written and its drift corrected, before the bytes are handed on. -/
def burstServed (u : UnitNo) (g : GrantRecord) (b : Burst) (s : State) : State :=
  driftStep u (burstDelta g.start b) (modU u (burstTaken g b) s)

theorem validOutcome_tree (h : onTree (getU u s) = true) : validOutcome u g b s
    = sendUpstream u b (attributeBurst u b.header.dlen.toNat g.pc g.busy (burstServed u g b s)) := if_pos h

theorem validOutcome_retiring (h : (getU u s).state = .retiring) :
    validOutcome u g b s = sendUpstream u b (modU u (lowered g) s) := by
  have hoff : onTree (getU u s) = false := by simp [onTree, h]
  unfold validOutcome
  rw [hoff, if_neg Bool.false_ne_true, if_pos h]
  rfl

theorem sendUpstream_none (h : b.header.dlen.toNat = 0) : sendUpstream u b s = s := if_pos h

theorem sendUpstream_some (h : 0 < b.header.dlen.toNat) : sendUpstream u b s
    = { s with tli := { s.tli with upstream := s.tli.upstream ++ [⟨u.val, b.payload.take b.header.dlen.toNat⟩] } } :=
  if_neg (Nat.ne_of_gt h)

theorem attributeBurst_none {pc : Nat} {busy : Bool} : attributeBurst u 0 pc busy s = s := if_pos rfl

/-- The bytes of a burst in the live set; COUNTER_SATURATED is a report. -/
theorem attributeBurst_reports {d pc : Nat} {busy : Bool} (h : 0 < d) : OnlyReports (modA u (fun a =>
      { a with live := attributeUp s.ucb.band d (d - min d (4 * pc)) (if busy then d - min d (4 * pc) else 0) a.live }) s)
    (attributeBurst u d pc busy s) := by
  rw [attributeBurst, if_neg (Nat.ne_of_gt h)]
  exact saturation_reports _ _ _ _

theorem getK_attributeBurst {k : AlarmKind} {d pc : Nat} {busy : Bool} (hk : k ≠ .outboxOverflow) (hc : k ≠ .counterSaturated) :
    getK k (attributeBurst u d pc busy s) = getK k s := by
  unfold attributeBurst
  split
  · rfl
  · exact getK_saturation hk hc

/-- What the handing on of the bytes leaves: the records and the queue. -/
theorem handedOn_keeps (u : UnitNo) (g : GrantRecord) (b : Burst) (s : State) :
    (sendUpstream u b (attributeBurst u b.header.dlen.toNat g.pc g.busy s)).ut = s.ut
      ∧ (sendUpstream u b (attributeBurst u b.header.dlen.toNat g.pc g.busy s)).tli.queue = s.tli.queue
      ∧ OtherUnitsSame u s (sendUpstream u b (attributeBurst u b.header.dlen.toNat g.pc g.busy s))
      ∧ ∀ k, k ≠ .outboxOverflow → k ≠ .counterSaturated →
          getK k (sendUpstream u b (attributeBurst u b.header.dlen.toNat g.pc g.busy s)) = getK k s := by
  rcases Nat.eq_zero_or_pos b.header.dlen.toNat with h | h
  · rw [sendUpstream_none h, h, attributeBurst_none]
    exact ⟨rfl, rfl, otherUnits_of_tables, fun _ _ _ => rfl⟩
  · rw [sendUpstream_some h]
    have r := attributeBurst_reports (u := u) (s := s) (pc := g.pc) (busy := g.busy) h
    refine ⟨r.ut, ?_, ((modA_otherUnits u _ s).trans (r.otherUnits u)).trans otherUnits_of_tables, fun k hk hc => getK_attributeBurst hk hc⟩
    show (attributeBurst u b.header.dlen.toNat g.pc g.busy s).tli.queue = _
    rw [r.tli]
    rfl

/-- The bytes handed on and counted (R98, R108, R137). -/
theorem handedOn_bytes (u : UnitNo) (g : GrantRecord) (b : Burst) (s : State) :
    let t := sendUpstream u b (attributeBurst u b.header.dlen.toNat g.pc g.busy s)
    (b.header.dlen.toNat = 0 → t.tli.upstream = s.tli.upstream ∧ (getA u t).live = (getA u s).live)
      ∧ (0 < b.header.dlen.toNat → t.tli.upstream = s.tli.upstream ++ [⟨u.val, b.payload.take b.header.dlen.toNat⟩]
          ∧ (getA u t).live = attributeUp s.ucb.band b.header.dlen.toNat (b.header.dlen.toNat - min b.header.dlen.toNat (4 * g.pc))
            (if g.busy then b.header.dlen.toNat - min b.header.dlen.toNat (4 * g.pc) else 0) (getA u s).live) := by
  refine ⟨fun h => ?_, fun h => ?_⟩
  · rw [sendUpstream_none h, h, attributeBurst_none]
    exact ⟨rfl, rfl⟩
  · rw [sendUpstream_some h]
    have r := attributeBurst_reports (u := u) (s := s) (pc := g.pc) (busy := g.busy) h
    refine ⟨?_, ?_⟩
    · show (attributeBurst u b.header.dlen.toNat g.pc g.busy s).tli.upstream ++ _ = _
      rw [r.tli]
      rfl
    · show (getA u (attributeBurst u b.header.dlen.toNat g.pc g.busy s)).live = _
      rw [r.live, getA_modA, if_pos rfl]

theorem burstServed_keepsBurst (u : UnitNo) (g : GrantRecord) (b : Burst) (s : State) :
    KeepsBurst u (modU u (burstTaken g b) s) (burstServed u g b s) := driftStep_keepsBurst u _ _

end

/-- The value of a correction (R66). -/
theorem correctedEqd_value (c : ReachClass) (q : Nat) (d : Int) :
    ((q : Int) - d < 0 → correctedEqd c q d = 0)
      ∧ (0 ≤ (q : Int) - d → (q : Int) - d ≤ teq c → (correctedEqd c q d : Int) = (q : Int) - d)
      ∧ ((teq c : Int) < (q : Int) - d → correctedEqd c q d = teq c) := by
  unfold correctedEqd
  omega

theorem passesEdge_iff {c : ReachClass} {q : Nat} {d : Int} :
    passesEdge c q d = true ↔ (q : Int) - d < 0 ∨ (teq c : Int) < (q : Int) - d := by
  simp [passesEdge]

/-- What the correction of a serving record does to its EqD, its correction hold, the queue and REACH_EDGE (R66). -/
theorem driftStep_corrects {u : UnitNo} {q : Nat} {d : Int} {s : State} (h : serves (getU u s) = true) (hq : (getU u s).eqd = some q)
    (hd : d.natAbs ≤ 64) :
    let t := driftStep u d s
    let new := correctedEqd s.sc.reach q d
    (Corrects u d s → new ≠ q → s.tli.queue.length < 64 → (getU u t).eqd = some new ∧ (getU u t).corrHold = 4
        ∧ t.tli.queue.Perm (⟨.eqd u new, .ec, .plain⟩ :: s.tli.queue))
      ∧ (¬Corrects u d s ∨ new = q ∨ 64 ≤ s.tli.queue.length → (getU u t).eqd = some q
          ∧ (getU u t).corrHold = (getU u s).corrHold ∧ t.tli.queue = s.tli.queue)
      ∧ (Corrects u d s → passesEdge s.sc.reach q d = true → OccurredOnce .reachEdge s t)
      ∧ (¬Corrects u d s ∨ ¬passesEdge s.sc.reach q d = true → getK .reachEdge t = getK .reachEdge s) := by
  intro t new
  obtain ⟨hidle, hstep⟩ := driftStep_serving h hq hd
  by_cases hc : Corrects u d s
  case neg =>
    have ht : t = s := hidle hc
    rw [ht]
    exact ⟨fun h => absurd h hc, fun _ => ⟨hq, rfl, rfl⟩, fun h => absurd h hc, fun _ => rfl⟩
  case pos =>
    let e := edgeNoted u q d s
    have r : OnlyReports s e := edgeNoted_reports
    have hUe : getU u e = getU u s := r.getU u
    have htli : e.tli = s.tli := r.tli
    have ht : t = if new = q then e else offerEqd u new e := hstep hc
    have hK : getK .reachEdge t = getK .reachEdge e := by
      rw [ht]
      split
      · rfl
      · exact getK_offerEqd _
    refine ⟨fun _ hne hroom => ?_, fun hno => ?_, fun _ hpass => ?_, fun hno => ?_⟩
    · rw [ht, if_neg hne]
      rcases offerEqd_cases u new e with ⟨-, heq⟩ | ⟨hfull, -⟩
      · rw [heq, getU_modU_same, htli]
        exact ⟨rfl, rfl, enqueue_perm _ _⟩
      · rw [htli] at hfull
        omega
    · have hsame : t = e := by
        rw [ht]
        split
        · rfl
        next hne =>
          rcases offerEqd_cases u new e with ⟨hroom, -⟩ | ⟨-, heq⟩
          · rw [htli] at hroom
            rcases hno with hno | hno | hno
            · exact absurd hc hno
            · exact absurd hno hne
            · omega
          · exact heq
      rw [hsame, hUe, htli]
      exact ⟨hq, rfl, rfl⟩
    · refine OccurredOnce.later ?_ hK
      rw [show e = _ from if_pos hpass]
      exact occurredOnce_occur (by decide)
    · rw [hK, show e = _ from if_neg (hno.resolve_left (not_not_intro hc))]

/-- Settles O26: the record written, its drift corrected, and the bytes handed on, by the record's state. -/
theorem validBurstServesTheRecord : Obligations.ValidBurstServesTheRecord := by
  unfold Obligations.ValidBurstServesTheRecord
  intro n u b s g hheld hawaits hvalid
  have hexec := exec_burstClassify (found := some b) hheld hawaits
  have hdelta : (burstDelta g.start b).natAbs ≤ 64 := by
    obtain ⟨-, -, -, hd, -⟩ := hvalid
    exact hd
  rw [applyOutcome_valid hvalid] at hexec
  let j := findingsTaken n u s
  by_cases htree : onTree (getU u s) = true
  case neg =>
    have hidle : ¬serves (getU u s) = true := fun h => htree (onTree_of_serves h)
    have hnotRanging : (getU u s).state ≠ .ranging := fun h => htree (by simp [onTree, h])
    by_cases hr : (getU u s).state = .retiring
    · rw [validOutcome_retiring (s := findingsTaken n u s) hr] at hexec
      have hother : OtherUnitsSame u s (modU u (lowered g) j) := modU_otherUnits u (lowered g) j
      rcases Nat.eq_zero_or_pos b.header.dlen.toNat with h0 | hpos
      · rw [sendUpstream_none h0] at hexec
        refine ⟨_, hexec, hother, fun h => by simp [hr] at h, fun _ _ => ⟨fun _ => rfl, fun h => by omega, ?_⟩,
          fun _ => ⟨getU_modU_same _ _ _, rfl, rfl, rfl⟩, fun h => absurd h htree, fun h => absurd h hnotRanging, fun h => absurd h hidle⟩
        rw [getU_modU_same]
        rfl
      · rw [sendUpstream_some hpos] at hexec
        have hU : getU u (modU u (lowered g) j) = lowered g (getU u s) := getU_modU_same _ _ _
        exact ⟨_, hexec, hother, fun h => by simp [hr] at h, fun _ _ => ⟨fun h => by omega, fun _ => rfl, congrArg UnitRecord.outstanding hU⟩,
          fun _ => ⟨hU, rfl, rfl, rfl⟩, fun h => absurd h htree, fun h => absurd h hnotRanging, fun h => absurd h hidle⟩
    · have hsame : validOutcome u g b j = j := (if_neg htree).trans (if_neg hr)
      have hoff : (getU u s).state = .free ∨ (getU u s).state = .claiming := by
        revert htree hr
        simp only [onTree]
        cases (getU u s).state <;> simp
      rw [hsame] at hexec
      exact ⟨_, hexec, otherUnits_of_tables (t := j), fun _ => rfl, fun hf hc => absurd hoff (by simp [hf, hc]), fun h => absurd h hr,
        fun h => absurd h htree, fun h => absurd h hnotRanging, fun h => absurd h hidle⟩
  case pos =>
    have hstates := onTree_states htree
    have hoff : ¬((getU u s).state = .free ∨ (getU u s).state = .claiming) := by
      rcases hstates with h | h | h <;> simp [h]
    have hretiring : (getU u s).state ≠ .retiring := by
      rcases hstates with h | h | h <;> simp [h]
    let a := modU u (burstTaken g b) j
    let d := burstServed u g b j
    have hUa : getU u a = burstTaken g b (getU u s) := getU_modU_same _ _ _
    have keeps : KeepsBurst u a d := burstServed_keepsBurst u g b j
    obtain ⟨hut, hqueue, hhanded, hK⟩ := handedOn_keeps u g b d
    obtain ⟨hnone, hsome⟩ := handedOn_bytes u g b d
    have hstep : validOutcome u g b (findingsTaken n u s) = sendUpstream u b (attributeBurst u b.header.dlen.toNat g.pc g.busy d) :=
      validOutcome_tree (s := j) htree
    rw [hstep] at hexec
    generalize sendUpstream u b (attributeBurst u b.header.dlen.toNat g.pc g.busy d) = t at *
    have hUt : getU u t = getU u d := getU_congr hut u
    obtain ⟨e, h, hUd⟩ := keeps.record
    obtain ⟨hreport, hout, hsilent, hstreak, hlevel, hcredit, hserial, heqd, hcorr, hserves⟩ := burstTaken_writes g b (getU u s)
    have hlive : (getA u d).live = (getA u s).live := keeps.live
    have hband : d.ucb.band = s.ucb.band := keeps.band
    have hup : d.tli.upstream = s.tli.upstream := keeps.upstream
    rw [hlive, hup] at hnone
    rw [hlive, hup, hband] at hsome
    have hedge : getK .reachEdge t = getK .reachEdge d := hK _ (by decide) (by decide)
    refine ⟨t, hexec, ((modU_otherUnits u _ j).trans keeps.others).trans hhanded, fun h => absurd h hoff,
      fun _ _ => ⟨fun h0 => (hnone h0).1, fun hpos => (hsome hpos).1, ?_⟩, fun h => absurd h hretiring, fun _ => ?_, fun hranging => ?_,
      fun hs => ?_⟩
    · rw [hUt, hUd, hUa]
      exact hout
    · rw [hUt, hUd, hUa]
      refine ⟨hreport, hsilent, hstreak, hlevel, hcredit, hserial, fun h0 => (hnone h0).2, fun hpos => ?_⟩
      rw [(hsome hpos).2]
      exact ⟨(vector_get_set _ _ _ _).trans (if_pos rfl), rfl, rfl, rfl⟩
    · have hidle : serves (getU u a) = false := by
        rw [hUa, hserves]
        simp [serves, hranging]
      have hd : d = a := driftStep_idle hidle
      rw [hUt, hqueue, hedge, hd, hUa]
      refine ⟨?_, heqd, hcorr, rfl, rfl⟩
      rw [burstTaken_other (by simp [hranging])]
      exact hranging
    · have hsa : serves (getU u a) = true := by rw [hUa, hserves]; exact hs
      refine ⟨by rw [hUt, hUd, hUa]; exact burstTaken_active hs, fun hl => ?_, fun q hq => ?_⟩
      · rw [hUt, hUd, hUa, burstTaken_lost hl]
        exact ⟨rfl, rfl⟩
      · intro δ moved corrects
        have hqa : (getU u a).eqd = some q := by rw [hUa, heqd, hq]
        have hcorrects : Corrects u δ a ↔ corrects := by
          unfold Corrects
          rw [hUa, hcorr]
          rfl
        obtain ⟨htakes, hstays, hraises, hquiet⟩ := driftStep_corrects (d := δ) hsa hqa hdelta
        rw [hcorrects] at htakes hstays hraises hquiet
        rw [passesEdge_iff] at hraises hquiet
        have hcorrA : (getU u a).corrHold = (getU u s).corrHold := by rw [hUa, hcorr]
        rw [hcorrA] at hstays
        obtain ⟨hlow, hmid, hhigh⟩ := correctedEqd_value s.sc.reach q δ
        rw [hUt, hqueue]
        refine ⟨correctedEqd s.sc.reach q δ, hlow, hmid, hhigh, htakes, hstays, fun hc hp => ?_, fun hno => ?_⟩
        · exact ((hraises hc hp).later hedge).earlier rfl
        · rw [hedge]
          refine hquiet (hno.imp_right fun hin => ?_)
          obtain ⟨hge, hle⟩ := hin
          rintro (hl | hh)
          · exact absurd hge (not_le.mpr hl)
          · exact absurd hle (not_le.mpr hh)

end Sys2Proof.Machine

/-!
PROOFS. The Shelf Bus Port's reception and its outbox when full (O44, O45, O48).
-/
namespace Sys2Proof.Machine

-- One proof after another, as in the tests: side by side, the proofs of one text hold more stacks than the check's memory has room for.
set_option Elab.async false

/-! ### A full outbox (R175, R176) -/

section
variable {b : NoticeBody} {m : Notice} {l : List Notice} {s : State}

theorem occurredOnce_overflow {v : State} (h : (getK .outboxOverflow v).latched = (getK .outboxOverflow s).latched) :
    OccurredOnce .outboxOverflow s (overflow v) := by
  obtain ⟨-, -, -, hcount⟩ := AlarmRecord.latched_eq_iff.mp h
  have hK : getK .outboxOverflow (overflow v) = latchRecord none (getK .outboxOverflow v) := getK_modK_same _ _ _
  unfold OccurredOnce
  rw [hK, latchRecord_raised, latchRecord_count, hcount]
  exact ⟨rfl, rfl⟩

theorem overflow_outbox (s : State) : (overflow s).sbp.outbox = s.sbp.outbox := rfl

theorem noteLost_outbox (n : Notice) (s : State) : (noteLost n s).sbp.outbox = s.sbp.outbox := by
  unfold noteLost
  split
  case h_1 => split <;> rfl
  case h_3 => split <;> rfl
  all_goals rfl

theorem usageEvicted_outbox (n : Notice) (s : State) : (usageEvicted n s).sbp.outbox = s.sbp.outbox := by
  unfold usageEvicted
  split <;> rfl

/-- A refused offer leaves the outbox as it stood, but for a load notice that gave way. -/
theorem offerRaw_refused (h : outboxRefuses b s = true) :
    (offerRaw b s).sbp.outbox = outboxFor b s ∧ OccurredOnce .outboxOverflow s (offerRaw b s) := by
  unfold offerRaw
  simp only [h, if_true]
  refine ⟨?_, occurredOnce_overflow ((noteLost_latched _ _).trans rfl)⟩
  rw [overflow_outbox, noteLost_outbox]

/-- A full outbox gives up the newest notice of its highest class for one more urgent (R176). -/
theorem offerRaw_evicts (hb : b.cls ≠ 6) (hbox : outboxFor b s = l ++ [m]) (hfull : 32 ≤ (outboxFor b s).length)
    (hlt : b.cls < m.body.cls) : (offerRaw b s).sbp.outbox = insertNotice ⟨s.sbp.nextRef, b⟩ l
      ∧ OccurredOnce .outboxOverflow s (offerRaw b s) := by
  have hvictim : victimFor b.cls (outboxFor b s) = some m := by
    unfold victimFor
    rw [hbox, List.getLast?_concat]
    exact if_pos hlt
  have hrefuses : ¬outboxRefuses b s = true := by simp [outboxRefuses, hb, hvictim]
  unfold offerRaw
  simp only [if_neg hrefuses, if_neg (Nat.not_lt.mpr hfull), hvictim]
  refine ⟨?_, occurredOnce_overflow ?_⟩
  · rw [overflow_outbox, usageEvicted_outbox, noteLost_outbox, hbox, List.dropLast_concat]
  · rw [getK_congr (usageEvicted_alarms _ _), noteLost_latched]
    rfl

theorem outboxRefuses_full (hbox : outboxFor b s = l ++ [m]) (hfull : 32 ≤ (outboxFor b s).length) (hge : m.body.cls ≤ b.cls) :
    outboxRefuses b s = true := by
  have hvictim : victimFor b.cls (outboxFor b s) = none := by
    unfold victimFor
    rw [hbox, List.getLast?_concat]
    exact if_neg (Nat.not_lt.mpr hge)
  simp [outboxRefuses, hvictim, hfull]

theorem outboxFor_of_not_load (h : b.isLoad = false) : outboxFor b s = s.sbp.outbox := by
  simp [outboxFor, h]

end

/-- Settles O48: the last notice of the outbox is of its highest class, and the offer evicts it or is refused. -/
theorem fullOutboxGivesUpTheLeastUrgent : Obligations.FullOutboxGivesUpTheLeastUrgent := by
  unfold Obligations.FullOutboxGivesUpTheLeastUrgent
  intro b s hlaw
  obtain ⟨-, -, hsorted⟩ := hlaw
  refine ⟨fun hlen hload hcls => ?_, fun u c hb hheld => ?_⟩
  · have hbox : outboxFor b s = s.sbp.outbox := outboxFor_of_not_load hload
    have hne : s.sbp.outbox ≠ [] := fun h => by simp [h] at hlen
    obtain ⟨l, m, hlm⟩ := (List.eq_nil_or_concat' s.sbp.outbox).resolve_left hne
    have hfull : 32 ≤ (outboxFor b s).length := by rw [hbox]; omega
    have hforBox : outboxFor b s = l ++ [m] := hbox.trans hlm
    rw [hlm, List.pairwise_append] at hsorted
    obtain ⟨-, -, hbefore⟩ := hsorted
    refine ⟨l, m, hlm, fun y hy => hbefore y hy m List.mem_cons_self, fun hlt => (offerRaw_evicts hcls hforBox hfull hlt).1, fun hge => ?_, ?_⟩
    · exact (offerRaw_refused (outboxRefuses_full hforBox hfull hge)).1.trans hbox
    · rcases Nat.lt_or_ge b.cls m.body.cls with hlt | hge
      · exact (offerRaw_evicts hcls hforBox hfull hlt).2
      · exact (offerRaw_refused (outboxRefuses_full hforBox hfull hge)).2
  · subst hb
    have hrefuses : outboxRefuses (.usage u c) s = true := by
      have hbox : outboxFor (.usage u c) s = s.sbp.outbox := rfl
      simp [outboxRefuses, hbox, hheld, NoticeBody.cls]
    exact offerRaw_refused hrefuses

/-! ### Byte order (0.6.8) -/

theorem foldl_beBytes (k n a : Nat) : (beBytes k n).foldl (fun a b => a * 256 + b.toNat) a = a * 256 ^ k + n % 256 ^ k := by
  induction k generalizing a with
  | zero => simp [beBytes, Nat.mod_one]
  | succ k ih =>
    have hbyte : (BitVec.ofNat 8 (n / 256 ^ k)).toNat = n / 256 ^ k % 256 := BitVec.toNat_ofNat _ _
    simp only [beBytes, List.foldl_cons]
    rw [ih, hbyte, Nat.mod_pow_succ]
    ring

theorem beNat_beBytes {k n : Nat} (h : n < 256 ^ k) : beNat (beBytes k n) = n := by
  unfold beNat
  rw [foldl_beBytes, Nat.mod_eq_of_lt h]
  simp

theorem beBytes_length (k n : Nat) : (beBytes k n).length = k := by
  induction k with
  | zero => rfl
  | succ k ih => simp [beBytes, ih]

/-- The field that stands behind `i` bytes. -/
theorem fieldAt_beBytes {i k n : Nat} {l r : List Byte} (hl : l.length = i) (h : n < 256 ^ k) :
    fieldAt i k (l ++ (beBytes k n ++ r)) = n := by
  unfold fieldAt
  rw [List.drop_left' hl, List.take_left' (beBytes_length k n), beNat_beBytes h]

theorem serialAt_beBytes (x : Serial) (r : List Byte) : serialAt (beBytes 8 x.toNat ++ r) = x := by
  have h : fieldAt 0 8 ([] ++ (beBytes 8 x.toNat ++ r)) = x.toNat := fieldAt_beBytes rfl x.isLt
  unfold serialAt
  rw [show beBytes 8 x.toNat ++ r = [] ++ (beBytes 8 x.toNat ++ r) from rfl, h, BitVec.ofNat_toNat, BitVec.setWidth_eq]

/-! ### Notices on the line (R172, R173) -/

/-- A notice's bytes with their parts in sight. -/
theorem noticeBytes_eq (cls sender dest : Nat) (body : List Byte) : noticeBytes cls sender dest body
    = BitVec.ofNat 8 (32 * cls + sender) :: BitVec.ofNat 8 dest :: BitVec.ofNat 8 body.length
      :: (body ++ beBytes 2 (crcNotice (BitVec.ofNat 8 (32 * cls + sender) :: BitVec.ofNat 8 dest :: BitVec.ofNat 8 body.length :: body)).toNat) := by
  simp [noticeBytes, beBytes]

section
variable {b0 b1 b2 : Byte} {body rest : List Byte} {c : BitVec 16}

theorem hearNotice_unframed (bytes : List Byte) : hearNotice false bytes = .faulty := by
  unfold hearNotice
  split
  · rfl
  · rfl

theorem hearNotice_long (h : 72 < b2.toNat) : hearNotice true (b0 :: b1 :: b2 :: rest) = .faulty := by
  unfold hearNotice
  simp [h]

theorem hearNotice_short (h : rest.length < b2.toNat + 2) : hearNotice true (b0 :: b1 :: b2 :: rest) = .faulty := by
  unfold hearNotice
  simp [h]

theorem hearNotice_cut {bytes : List Byte} (h : bytes.length < 5) : hearNotice true bytes = .faulty := by
  match bytes with
  | [] => rfl
  | [_] => rfl
  | [_, _] => rfl
  | b0 :: b1 :: b2 :: rest =>
    refine hearNotice_short ?_
    simp only [List.length_cons] at h
    omega

theorem hearNotice_whole (hl : body.length ≤ 72) : hearNotice true (b0 :: b1 :: BitVec.ofNat 8 body.length :: (body ++ beBytes 2 c.toNat))
    = if crcNotice (b0 :: b1 :: BitVec.ofNat 8 body.length :: body) ≠ c then .faulty
      else if (classLength (b0.toNat / 32)).getD body.length ≠ body.length then .faulty
      else if h : b1.toNat < 32 then .whole (b0.toNat / 32) ⟨⟨b0.toNat % 32, Nat.mod_lt _ (by decide)⟩, ⟨b1.toNat, h⟩⟩ body
      else .elsewhere := by
  have hlen : (BitVec.ofNat 8 body.length).toNat = body.length := by
    rw [BitVec.toNat_ofNat]
    omega
  have hfield : fieldAt body.length 2 (body ++ beBytes 2 c.toNat) = c.toNat := by
    have := fieldAt_beBytes (r := []) (l := body) rfl c.isLt (k := 2)
    rwa [List.append_nil] at this
  have htake : (body ++ beBytes 2 c.toNat).take body.length = body := List.take_left' rfl
  unfold hearNotice
  simp only [hlen, htake, hfield, BitVec.ofNat_toNat, BitVec.setWidth_eq, Bool.not_true, Bool.false_eq_true, if_false,
    if_neg (Nat.not_lt.mpr hl), List.length_append, beBytes_length, Nat.lt_irrefl]

theorem hearNotice_noticeBytes {cls : Nat} {h : NoticeHead} (hcls : cls < 8) (hl : body.length ≤ 72) :
    hearNotice true (noticeBytes cls h.sender.val h.dest.val body)
      = if (classLength cls).getD body.length ≠ body.length then .faulty else .whole cls h body := by
  have hs := h.sender.isLt
  have hd := h.dest.isLt
  have hfront : (BitVec.ofNat 8 (32 * cls + h.sender.val)).toNat = 32 * cls + h.sender.val := by
    rw [BitVec.toNat_ofNat]
    omega
  have hclass : (32 * cls + h.sender.val) / 32 = cls := by omega
  have hsender : (32 * cls + h.sender.val) % 32 = h.sender.val := by omega
  have hdest : (BitVec.ofNat 8 h.dest.val).toNat = h.dest.val := by
    rw [BitVec.toNat_ofNat]
    omega
  rw [noticeBytes_eq, hearNotice_whole hl]
  simp only [ne_eq, not_true_eq_false, if_false, hfront, hclass, hsender, hdest, hd, dif_pos]

end

/-! ### Reception (R169, R173) -/

section
variable {s : State} {k : Nat}

theorem sendingNotice_none (h : ∀ m, s.sbp.slot ≠ some ⟨m, true⟩) : sendingNotice s = none := by
  unfold sendingNotice
  split
  next sl hsl =>
    rw [if_neg]
    intro hsending
    obtain ⟨m, sending⟩ := sl
    obtain rfl : sending = true := hsending
    exact h m hsl
  · rfl

/-- A notice heard on a quiet line is judged by its bytes alone. -/
theorem exec_noticeReceived {framed : Bool} {bytes : List Byte} (hheld : s.held = false) (hslot : ∀ m, s.sbp.slot ≠ some ⟨m, true⟩)
    (hquiet : s.sbp.heardQuiet = true ∨ 12 ≤ k) : exec (.noticeReceived ⟨k, framed⟩ bytes) s
      = .next (hearStep framed bytes { s with sbp := { s.sbp with quiet := 0, heardQuiet := true } }) := by
  have hheard : quietHeard k s = true := by simpa [quietHeard] using hquiet
  refine (unlessHeld_of_not_held hheld _).trans (congrArg _ ?_)
  unfold receiveStep
  rw [sendingNotice_none hslot, hheard]
  rfl

theorem hearStep_faulty {framed : Bool} {bytes : List Byte} (h : hearNotice framed bytes = .faulty) :
    hearStep framed bytes s = { s with sbp := { s.sbp with recvErrors := min 65535 (s.sbp.recvErrors + 1) } } := by
  unfold hearStep
  rw [h]
  rfl

theorem hearStep_whole {cls : Nat} {h : NoticeHead} {body : List Byte} (hcls : cls < 8) (hl : body.length ≤ 72)
    (hc : (classLength cls).getD body.length = body.length) :
    hearStep true (noticeBytes cls h.sender.val h.dest.val body) s = dispatchNotice cls h body s := by
  unfold hearStep
  rw [hearNotice_noticeBytes hcls hl, if_neg (not_not_intro hc)]

theorem exec_orderCommand (h : OrderHead) (o : Order) : exec (orderCommand h o) s = unlessHeld (receiveOrder h o) s := by
  cases o <;> rfl

theorem receiveOrder_elsewhere {h : OrderHead} (hall : h.dest.val ≠ 31) (hhere : h.dest.val ≠ s.sc.station.val) (o : Order) :
    receiveOrder h o s = s := by
  simp [receiveOrder, addressed, hall, hhere]

theorem receiveOrder_refused {h : OrderHead} (hdest : h.dest.val = 31 ∨ h.dest.val = s.sc.station.val) (hh : ¬Heeded h s) (o : Order) :
    receiveOrder h o s = { s with sbp := { s.sbp with refused := min 65535 (s.sbp.refused + 1) } } := by
  have haddressed : addressed h.dest s = true := by simpa [addressed] using hdest
  have hsource : sourceAllowed h.sender s = false := by
    rw [← Bool.not_eq_true]
    intro hs
    simp only [sourceAllowed, Bool.and_eq_true, decide_eq_true_eq] at hs
    obtain ⟨⟨hlow, hhigh⟩, hbit⟩ := hs
    exact hh ⟨hdest, hlow, hhigh, hbit⟩
  simp only [receiveOrder, haddressed, hsource, Bool.not_true, Bool.not_false, Bool.false_eq_true, if_false, if_true]
  rfl

theorem exec_answered {h : OrderHead} {o : Order} {out : AnswerOutcome} (hheld : s.held = false) (hh : Heeded h s)
    (he : orderEffect o s = (s, out, .none)) : exec (orderCommand h o) s = .next (answered h o.kindByte out .none s) := by
  rw [exec_orderCommand]
  exact receive_of_heeded hheld hh he

end

theorem isMalformed_eq_false {o : Order} (h : ∀ k, o ≠ .malformed k) : isMalformed o = false := by
  cases o <;> simp [isMalformed] at h ⊢

/-- Settles O45: the checks on a notice's bytes in their order, and then the filter and the phase of an order. -/
theorem checksTurnNoticesAway : Obligations.ChecksTurnNoticesAway := by
  unfold Obligations.ChecksTurnNoticesAway
  refine ⟨fun k framed bytes s hheld hheard hk => ?_, fun heard bytes s m hheld hslot => ?_, fun k s hheld hslot hquiet => ?_,
    fun h o s hheld => ⟨fun hall hhere => ?_, fun hdest hh => ?_, fun hh => ⟨?_, ?_, ?_⟩⟩⟩
  · have hquiet : quietHeard k s = false := by simp [quietHeard, hheard, hk]
    refine (unlessHeld_of_not_held hheld _).trans (congrArg _ ?_)
    unfold receiveStep
    rw [hquiet, if_neg Bool.false_ne_true, ← hheard, ite_self]
    rfl
  · refine (unlessHeld_of_not_held hheld _).trans (congrArg _ ?_)
    unfold receiveStep
    rw [(sendingNotice_eq_some_iff _ _).mpr hslot]
    rfl
  · intro counted
    have hfaulty : ∀ framed bytes, hearNotice framed bytes = .faulty → exec (.noticeReceived ⟨k, framed⟩ bytes) s = .next counted :=
      fun framed bytes hf => by
        rw [exec_noticeReceived hheld hslot hquiet, hearStep_faulty hf]
    refine ⟨fun bytes => hfaulty _ _ (hearNotice_unframed bytes), fun bytes hb => hfaulty _ _ (hearNotice_cut hb),
      fun b0 b1 b2 rest hr => hfaulty _ _ (hearNotice_short hr), fun b0 b1 b2 rest hb => hfaulty _ _ (hearNotice_long hb),
      fun b0 b1 body c hl hc => hfaulty _ _ ?_, fun cls h body hl hcls => hfaulty _ _ ?_⟩
    · rw [hearNotice_whole hl, if_pos hc.symm]
    · have hlt : cls < 8 := by omega
      rw [hearNotice_noticeBytes hlt hl, if_pos]
      rcases hcls with ⟨rfl, h⟩ | ⟨rfl, h⟩ | ⟨rfl, h⟩ | ⟨rfl, h⟩ | ⟨rfl, h⟩ <;> exact h.symm
  · rw [exec_orderCommand, unlessHeld_of_not_held hheld, receiveOrder_elsewhere hall hhere]
  · rw [exec_orderCommand, unlessHeld_of_not_held hheld, receiveOrder_refused hdest hh]
  · rintro k rfl
    exact exec_answered hheld hh (by simp [orderEffect, isMalformed])
  · intro hm hsettings hrestart hphase
    refine exec_answered hheld hh ((orderEffect_early hphase (isMalformed_eq_false hm)).trans (if_neg ?_))
    cases o <;> simp [beforeServing] at hsettings hrestart ⊢
  · intro hm hsettings htake hclear hphase
    refine exec_answered hheld hh ((orderEffect_restarting hphase (isMalformed_eq_false hm)).trans (if_neg ?_))
    cases o <;> simp [whileRestarting] at hsettings htake hclear ⊢

/-! ### The bytes of notices (9.8) -/

/-- The fields of an order come back from its bytes (9.8.2, 9.8.7). -/
theorem settingsAt_fieldBytes (f : SettingsFields) : settingsAt (Order.settings f).fieldBytes = f := by
  obtain ⟨sources, tdark, budget, interval, litCount, mask⟩ := f
  have hsources := fieldAt_beBytes (i := 0) (k := 2) (l := []) (r := beBytes 2 tdark.toNat ++ (beBytes 3 budget.toNat ++ (beBytes 2 interval.toNat
    ++ [litCount, mask]))) rfl sources.isLt
  have htdark := fieldAt_beBytes (i := 2) (k := 2) (l := beBytes 2 sources.toNat) (r := beBytes 3 budget.toNat ++ (beBytes 2 interval.toNat
    ++ [litCount, mask])) rfl tdark.isLt
  have hbudget := fieldAt_beBytes (i := 4) (k := 3) (l := beBytes 2 sources.toNat ++ beBytes 2 tdark.toNat) (r := beBytes 2 interval.toNat
    ++ [litCount, mask]) rfl budget.isLt
  have hinterval := fieldAt_beBytes (i := 7) (k := 2) (l := beBytes 2 sources.toNat ++ beBytes 2 tdark.toNat ++ beBytes 3 budget.toNat)
    (r := [litCount, mask]) rfl interval.isLt
  have hback : ∀ {w : Nat} (b : BitVec w), BitVec.ofNat w b.toNat = b := fun b => by simp
  unfold settingsAt
  congr 1
  · exact (congrArg (BitVec.ofNat 16) hsources).trans (hback sources)
  · exact (congrArg (BitVec.ofNat 16) htdark).trans (hback tdark)
  · exact (congrArg (BitVec.ofNat 24) hbudget).trans (hback budget)
  · exact (congrArg (BitVec.ofNat 16) hinterval).trans (hback interval)

/-- An order's kind byte and fields spell that order. -/
theorem orderOf_fieldBytes {o : Order} (h : isMalformed o = false) : orderOf o.kindByte o.fieldBytes = o := by
  cases o with
  | settings f => exact congrArg Order.settings (settingsAt_fieldBytes f)
  | permit x c => exact congrArg (fun y => Order.permit y c) (serialAt_beBytes x _)
  | withdraw x => exact congrArg Order.withdraw (serialAt_beBytes x [])
  | revoke x => exact congrArg Order.revoke (serialAt_beBytes x [])
  | profile x c => exact congrArg (fun y => Order.profile y c) (serialAt_beBytes x _)
  | band b => rfl
  | take => rfl
  | alarmClear k => rfl
  | unbar x => exact congrArg Order.unbar (serialAt_beBytes x [])
  | restart => rfl
  | malformed k => cases h

theorem fieldBytes_length (o : Order) : o.fieldBytes.length ≤ 12 := by
  cases o <;> simp [Order.fieldBytes, beBytes_length]

section
variable {s : State}

theorem orderTag_orderBody (tag : BitVec 16) (o : Order) : orderTag s (orderBody tag o) = tag := by
  have h : orderTag s (orderBody tag o) = BitVec.ofNat 16 (beNat (beBytes 2 tag.toNat)) := rfl
  rw [h, beNat_beBytes tag.isLt, BitVec.ofNat_toNat, BitVec.setWidth_eq]

theorem orderBody_length (tag : BitVec 16) (o : Order) : (orderBody tag o).length = o.fieldBytes.length + 3 := by
  simp only [orderBody, List.length_cons, List.length_append, beBytes_length]
  omega

theorem orderIn_orderBody {tag : BitVec 16} {o : Order} (h : isMalformed o = false) : orderIn s (orderBody tag o) = o := by
  have hlen := orderBody_length tag o
  unfold orderIn
  rw [if_neg (by omega)]
  exact orderOf_fieldBytes h

theorem spendFree_orderBody (tag : BitVec 16) (o : Order) : spendFree (orderBody tag o) s = s := by
  have hlen := orderBody_length tag o
  unfold spendFree
  rw [if_neg (by omega)]

/-- The bytes of an order act as the order. -/
theorem dispatchNotice_order {h : OrderHead} {o : Order} (ho : isMalformed o = false) :
    dispatchNotice 1 ⟨h.sender, h.dest⟩ (orderBody h.tag o) s = receiveOrder h o s := by
  unfold dispatchNotice
  by_cases haddressed : addressed h.dest s = true
  · simp only [haddressed, if_true]
    rw [orderTag_orderBody, orderIn_orderBody ho, spendFree_orderBody]
  · simp only [haddressed]
    unfold receiveOrder
    rw [if_neg Bool.false_ne_true, if_pos (by simp [haddressed])]

/-- The serial and the level of a claim notice come back from its bytes (9.8.5). -/
theorem claimFields_bytes (x : Serial) (level : BitVec 16) (r : List Byte) :
    serialAt (beBytes 8 x.toNat ++ beBytes 2 level.toNat ++ r) = x
      ∧ fieldAt 8 2 (beBytes 8 x.toNat ++ beBytes 2 level.toNat ++ r) = level.toNat := by
  rw [List.append_assoc]
  exact ⟨serialAt_beBytes x _, fieldAt_beBytes (beBytes_length 8 _) level.isLt⟩

theorem claimBody_stored (h : NoticeHead) (x : Serial) (level : BitVec 16) (c : StoredClaim) :
    claimBody h (beBytes 8 x.toNat ++ beBytes 2 level.toNat ++ beBytes 1 (storedKind c).code) s = claimStep h x level c s := by
  obtain ⟨hx, hlevel⟩ := claimFields_bytes x level (beBytes 1 (storedKind c).code)
  unfold claimBody
  simp only [hx, hlevel, BitVec.ofNat_toNat, BitVec.setWidth_eq]
  cases c <;> rfl

theorem claimBody_released (h : NoticeHead) (x : Serial) (level : BitVec 16) :
    claimBody h (beBytes 8 x.toNat ++ beBytes 2 level.toNat ++ beBytes 1 ClaimKind.released.code) s = releasedStep h x level s := by
  obtain ⟨hx, hlevel⟩ := claimFields_bytes x level (beBytes 1 ClaimKind.released.code)
  unfold claimBody
  simp only [hx, hlevel, BitVec.ofNat_toNat, BitVec.setWidth_eq]
  rfl

/-- The bytes of a load notice's body (9.8.3). -/
def loadBytes (b : LoadBody) : List Byte :=
  beBytes 2 b.load.toNat ++ beBytes 4 b.undeliverable.toNat ++ beBytes 4 b.interfered.toNat ++ beBytes 2 b.lineFaults.toNat
    ++ [b.isolation, b.active]

theorem loadBodyOf_bytes (b : LoadBody) : loadBodyOf (loadBytes b) = b := by
  obtain ⟨load, undeliverable, interfered, lineFaults, isolation, active⟩ := b
  have hload := fieldAt_beBytes (i := 0) (k := 2) (l := []) (r := beBytes 4 undeliverable.toNat ++ (beBytes 4 interfered.toNat
    ++ (beBytes 2 lineFaults.toNat ++ [isolation, active]))) rfl load.isLt
  have hundeliverable := fieldAt_beBytes (i := 2) (k := 4) (l := beBytes 2 load.toNat) (r := beBytes 4 interfered.toNat
    ++ (beBytes 2 lineFaults.toNat ++ [isolation, active])) rfl undeliverable.isLt
  have hinterfered := fieldAt_beBytes (i := 6) (k := 4) (l := beBytes 2 load.toNat ++ beBytes 4 undeliverable.toNat)
    (r := beBytes 2 lineFaults.toNat ++ [isolation, active]) rfl interfered.isLt
  have hfaults := fieldAt_beBytes (i := 10) (k := 2) (l := beBytes 2 load.toNat ++ beBytes 4 undeliverable.toNat ++ beBytes 4 interfered.toNat)
    (r := [isolation, active]) rfl lineFaults.isLt
  have hback : ∀ {w : Nat} (b : BitVec w), BitVec.ofNat w b.toNat = b := fun b => by simp
  unfold loadBodyOf
  congr 1
  · exact (congrArg (BitVec.ofNat 16) hload).trans (hback load)
  · exact (congrArg (BitVec.ofNat 32) hundeliverable).trans (hback undeliverable)
  · exact (congrArg (BitVec.ofNat 32) hinterfered).trans (hback interfered)
  · exact (congrArg (BitVec.ofNat 16) hfaults).trans (hback lineFaults)

end

/-- Settles O44: the receive checks pass, and each class's body is read back field by field. -/
theorem receivedNoticeIsItsCommand : Obligations.ReceivedNoticeIsItsCommand := by
  unfold Obligations.ReceivedNoticeIsItsCommand
  intro s k hheld hslot hquiet v
  have hv : v.held = false := hheld
  have hear : ∀ (cls : Nat) (h : NoticeHead) (body : List Byte), cls < 8 → body.length ≤ 72 →
      (classLength cls).getD body.length = body.length →
      exec (.noticeReceived ⟨k, true⟩ (noticeBytes cls h.sender.val h.dest.val body)) s = .next (dispatchNotice cls h body v) :=
    fun cls h body hcls hl hc => by rw [exec_noticeReceived hheld hslot hquiet, hearStep_whole hcls hl hc]
  refine ⟨fun h o ho => ⟨receiveOrder h o v, ?_, ?_⟩, fun h x level => ⟨fun c => ?_, ?_, fun reason => ?_, fun b => ?_, fun cause reach => ?_⟩⟩
  · have hlen : (orderBody h.tag o).length ≤ 72 := by
      have := fieldBytes_length o
      rw [orderBody_length]
      omega
    rw [← dispatchNotice_order (s := v) (h := h) ho]
    exact hear 1 ⟨h.sender, h.dest⟩ _ (by decide) hlen rfl
  · rw [exec_orderCommand, unlessHeld_of_not_held hv]
  · have hlen : (beBytes 8 x.toNat ++ beBytes 2 level.toNat ++ beBytes 1 (storedKind c).code).length = 11 := by simp [beBytes_length]
    refine (hear 3 h _ (by decide) (hlen.trans_le (by decide)) hlen.symm).trans ?_
    rw [show dispatchNotice 3 h _ v = claimBody h _ v from rfl, claimBody_stored]
    exact (unlessHeld_of_not_held hv _).symm
  · have hlen : (beBytes 8 x.toNat ++ beBytes 2 level.toNat ++ beBytes 1 ClaimKind.released.code).length = 11 := by simp [beBytes_length]
    refine (hear 3 h _ (by decide) (hlen.trans_le (by decide)) hlen.symm).trans ?_
    rw [show dispatchNotice 3 h _ v = claimBody h _ v from rfl, claimBody_released]
    exact (unlessHeld_of_not_held hv _).symm
  · have hlen : (beBytes 8 x.toNat ++ [reason]).length = 9 := by simp [beBytes_length]
    have hbar : dispatchNotice 4 h (beBytes 8 x.toNat ++ [reason]) v = barStep h (serialAt (beBytes 8 x.toNat ++ [reason])) reason v := rfl
    refine (hear 4 h _ (by decide) (hlen.trans_le (by decide)) hlen.symm).trans ?_
    rw [hbar, serialAt_beBytes]
    exact (unlessHeld_of_not_held hv _).symm
  · have hlen : (loadBytes b).length = 14 := by simp [loadBytes, beBytes_length]
    have hload : dispatchNotice 5 h (loadBytes b) v = loadStep h (loadBodyOf (loadBytes b)) v := rfl
    refine (hear 5 h _ (by decide) (hlen.trans_le (by decide)) hlen.symm).trans ?_
    rw [hload, loadBodyOf_bytes]
    exact (unlessHeld_of_not_held hv _).symm
  · refine (hear 7 h _ (by decide) (by simp) rfl).trans ?_
    exact (unlessHeld_of_not_held hv _).symm

end Sys2Proof.Machine

/-!
PROOFS. The transmit slot and the reports of what it sent (O46, O47).
-/
namespace Sys2Proof.Machine

-- One proof after another, as in the tests: side by side, the proofs of one text hold more stacks than the check's memory has room for.
set_option Elab.async false

/-! ### A run of pacing in an outbox with room (R145, R175) -/

section
variable {c : NoticeBody} {n : Nat} {s : State}

theorem outboxRefuses_many {u : UnitNo} (h : 4 ≤ usageHeld s.sbp.outbox) : outboxRefuses (.usage u none) s = true := by
  have hbox : outboxFor (.usage u none) s = s.sbp.outbox := rfl
  simp [outboxRefuses, hbox, h, NoticeBody.cls]

/-- Each offer of a run adds one notice at most, and evicts none while there is room. -/
theorem paceLoop_keepsNotices (fuel : Nat) (h : OutboxRoom (n + fuel) s) (hc : InOutbox c s) :
    OutboxRoom n (paceLoop fuel s) ∧ InOutbox c (paceLoop fuel s) := by
  induction fuel generalizing s with
  | zero => exact ⟨h, hc⟩
  | succ fuel ih =>
    unfold paceLoop
    split
    case isFalse => exact ⟨h.mono (Nat.le_add_right _ _), hc⟩
    split
    case h_1 => exact ⟨h.mono (Nat.le_add_right _ _), hc⟩
    next u hu =>
      rcases Nat.lt_or_ge (usageHeld s.sbp.outbox) 4 with hheld | hheld
      · have hroom : s.sbp.outbox.length < 32 := OutboxRoom.lt (n := n + fuel) h
        rw [if_neg (by rw [outboxRefuses_usage hheld hroom]; exact Bool.false_ne_true), offerRaw_usage hheld hroom]
        refine ih ?_ ?_
        · have hlen : (usageTaken u (usageJoined u s)).sbp.outbox.length = s.sbp.outbox.length + 1 := insertNotice_length _ _
          unfold OutboxRoom at h ⊢
          rw [hlen]
          omega
        · obtain ⟨m, hm, hbody⟩ := hc
          exact ⟨m, mem_insertNotice.mpr (.inr hm), hbody⟩
      · have hrefuses : outboxRefuses (.usage u none) s = true := outboxRefuses_many hheld
        obtain ⟨hbox, -⟩ := offerRaw_refused hrefuses
        have hbox : (offerRaw (.usage u none) s).sbp.outbox = s.sbp.outbox := hbox
        rw [if_pos hrefuses]
        unfold OutboxRoom InOutbox at *
        rw [hbox]
        exact ⟨by omega, hc⟩

theorem InOutbox.overflowNotice {before : State} (hc : InOutbox c s) (h : OutboxRoom 1 s) : InOutbox c (overflowNotice before s) := by
  unfold Machine.overflowNotice
  split
  · have hcls : (NoticeBody.alarm .outboxOverflow 1 none).cls ≠ 6 := by decide
    unfold offerPaced
    simp only [offerRaw_room hcls h.lt, Nat.lt_irrefl, if_false]
    obtain ⟨m, hm, hbody⟩ := hc
    exact ⟨m, mem_insertNotice.mpr (.inr hm), hbody⟩
  · exact hc

/-- A notice in an outbox with room outlasts a run of pacing. -/
theorem InOutbox.pace (hc : InOutbox c s) (h : OutboxRoom 5 s) : InOutbox c (pace s) := by
  obtain ⟨hroom, hin⟩ := paceLoop_keepsNotices (n := 1) 4 h hc
  exact hin.overflowNotice hroom

end

/-! ### A RETIRING record freed (R36) -/

/-- A RETIRING record freed, before its orders and notices. -/
def freedFinal (u : UnitNo) (s : State) : State := setU u (freedRecord 4000) (modA u (fun _ => Account.blank) (modE u freedEc s))

section
variable {u : UnitNo} {x : Serial} {s : State}

theorem freeRetired_of_serial (hx : (getU u s).serial = some x) : freeRetired u s
    = queueReleased u x (getU u s).level (if (getU u s).barSent then freedFinal u s else offerDrop .ut u (freedFinal u s)) := by
  unfold freeRetired
  simp only [hx]
  rfl

/-- What freeing the record writes, and what beyond that are reports. -/
theorem freeRetired_writes (hx : (getU u s).serial = some x) : ∃ w q,
    OnlyReports (setU u { freedRecord 4000 with dropPending := !(getU u s).barSent, dropWait := w }
      ((modA u (fun _ => Account.blank) (modE u freedEc s)).withQueue q)) (freeRetired u s)
      ∧ ((getU u s).barSent = true → w = .idle ∧ q = s.tli.queue)
      ∧ ((getU u s).barSent = false → s.tli.queue.length < 64 → w = .idle ∧ q = enqueue ⟨.dropUnit u, .ut, .plain⟩ s.tli.queue)
      ∧ ((getU u s).barSent = false → 64 ≤ s.tli.queue.length → w = .waiting ∧ q = s.tli.queue) := by
  rw [freeRetired_of_serial hx]
  cases hbar : (getU u s).barSent with
  | true =>
    exact ⟨.idle, s.tli.queue, queueReleased_reports _ _ _ _, fun _ => ⟨rfl, rfl⟩, fun h => absurd h (by decide), fun h => absurd h (by decide)⟩
  | false =>
    have hU : getU u (freedFinal u s) = freedRecord 4000 := getU_setU_same _ _ _
    obtain ⟨w, q, hdrop, hq⟩ := offerDrop_writes .ut u (freedFinal u s)
    have hset : modU u (fun r => { r with dropPending := true, dropWait := w }) ((freedFinal u s).withQueue q)
        = setU u { freedRecord 4000 with dropPending := true, dropWait := w }
          ((modA u (fun _ => Account.blank) (modE u freedEc s)).withQueue q) := by
      have hU' : getU u ((freedFinal u s).withQueue q) = freedRecord 4000 := hU
      unfold modU
      rw [hU']
      simp [setU, freedFinal, State.withQueue]
    have hqueue : (freedFinal u s).tli.queue = s.tli.queue := rfl
    rw [hqueue] at hq
    refine ⟨w, q, ?_, fun h => absurd h (by decide), fun _ hlt => ?_, fun _ hge => ?_⟩
    · rw [if_neg Bool.false_ne_true, hdrop, hset]
      exact queueReleased_reports _ _ _ _
    · rcases hq with ⟨hw, hq, -⟩ | ⟨-, -, hge⟩
      · exact ⟨hw, hq⟩
      · omega
    · rcases hq with ⟨-, -, hlt⟩ | ⟨hw, hq, -⟩
      · omega
      · exact ⟨hw, hq⟩

theorem freeRetired_inOutbox (hx : (getU u s).serial = some x) (h : OutboxRoom 6 s) :
    InOutbox (.claim x (getU u s).level .released u) (freeRetired u s) ∧ OutboxRoom 5 (freeRetired u s) := by
  rw [freeRetired_of_serial hx]
  generalize hv : (if (getU u s).barSent then freedFinal u s else offerDrop .ut u (freedFinal u s)) = v
  have hroom : OutboxRoom 6 v := by
    rw [← hv]
    split
    · exact h
    · rcases offerDrop_cases .ut u (freedFinal u s) with ⟨-, he⟩ | ⟨-, he⟩ <;> rw [he] <;> exact h
  exact ⟨queueReleased_inOutbox (hroom.mono (by decide)), offerNotice_keepsRoom (show (3 : Nat) ≠ 6 by decide) hroom⟩

end

/-! ### Reports of usage notices (R146 to R148) -/

section
variable {b : UsageBody} {p : Snapshot} {s : State}

theorem usageMatch_found (hp : (getA b.unit s).snapshot = some p) (hn : p.notice = .onLine) (hx : (getU b.unit s).serial = some b.serial)
    (ht : p.takeNo = b.takeNo) : usageMatch b (oneOutLess s) = some p := by
  have hp' : (getA b.unit (oneOutLess s)).snapshot = some p := hp
  unfold usageMatch
  rw [hp']
  exact if_pos ⟨hn, hx, ht⟩

theorem usageSent_freed (h : usageMatch b (oneOutLess s) = some p) (hf : p.isFinal = true) :
    usageSent b s = pace (freeRetired b.unit (oneOutLess s)) := by
  simp [usageSent, h, hf]

/-- The snapshot whose notice has been sent is let go (R146). -/
def snapshotGone (u : UnitNo) (s : State) : State := modA u (fun a => { a with snapshot := none }) (oneOutLess s)

theorem usageSent_gone (h : usageMatch b (oneOutLess s) = some p) (hf : p.isFinal = false) (hc : p.closePending = false) :
    usageSent b s = pace (snapshotGone b.unit s) := by
  simp [usageSent, h, hf, hc, snapshotGone]

theorem usageSent_closed (h : usageMatch b (oneOutLess s) = some p) (hf : p.isFinal = false) (hc : p.closePending = true) :
    usageSent b s = pace (makeFinal b.unit (snapshotGone b.unit s)) := by
  simp [usageSent, h, hf, hc, snapshotGone]

theorem usageAborted_closed (h : usageMatch b (oneOutLess s) = some p) (hc : p.closePending = true) :
    usageAborted b s = pace (mergeFinal b.unit p .unqueued (oneOutLess s)) := by
  simp [usageAborted, h, hc]

/-- Without a close pending an aborted usage notice moves its snapshot alone (R147). -/
theorem usageAborted_moved (hp : (getA b.unit s).snapshot = some p) (hc : p.closePending = false) :
    ∃ q, (getA b.unit (usageAborted b s)).snapshot = some q ∧ q.contents = p.contents := by
  unfold usageAborted
  simp only
  split
  · exact (pace_reports _).account b.unit (p := p) hp
  next q hq =>
    obtain ⟨hq, -⟩ := usageMatch_snapshot hq
    have hq : (getA b.unit s).snapshot = some q := hq
    rw [hp] at hq
    obtain rfl := Option.some.inj hq
    have hmoved : (getA b.unit (modA b.unit (fun a => { a with snapshot := some { p with notice := .unqueued } }) (oneOutLess s))).snapshot
        = some { p with notice := .unqueued } := by rw [getA_modA_same]
    rw [if_neg (by rw [hc]; exact Bool.false_ne_true)]
    obtain ⟨v, hv, hcontents⟩ := (pace_reports _).account b.unit hmoved
    exact ⟨v, hv, hcontents⟩

/-- The account once its live set has been merged into snapshot `p`, which stands with the shelf bus no more (R148). -/
def mergedAccount (u : UnitNo) (p : Snapshot) (s : State) (a : Account) : Account :=
  { a with
    live := CounterSet.zero
    snapshot := some { p with counters := mergeSets p.counters (getA u s).live, isFinal := true, disputed := (getU u s).disputed,
                              notice := .unqueued, closePending := false } }

theorem mergeFinal_reports (u : UnitNo) (s : State) : OnlyReports (modA u (mergedAccount u p s) s) (mergeFinal u p .unqueued s) :=
  saturation_reports _ _ _ _

theorem mergeFinal_notOnLine (u : UnitNo) (s : State) :
    (getA u (pace (mergeFinal u p .unqueued s))).snapshot.any (fun q => q.notice == .onLine) = false := by
  rw [(pace_reports _).onLine, (mergeFinal_reports u s).onLine, getA_modA_same]
  rfl

theorem usageAborted_ut (b : UsageBody) (s : State) : (usageAborted b s).ut = s.ut := by
  unfold usageAborted
  simp only
  split
  · exact (pace_reports _).ut
  · split
    · exact (pace_reports _).ut.trans (saturation_reports _ _ _ _).ut
    · exact (pace_reports _).ut

theorem usageAborted_sbp (b : UsageBody) (s : State) :
    (usageAborted b s).sbp.slot = s.sbp.slot ∧ (usageAborted b s).sbp.lineFaults = s.sbp.lineFaults := by
  unfold usageAborted
  simp only
  split
  · exact ⟨(pace_reports _).slot, (pace_reports _).lineFaults⟩
  · split
    · exact ⟨(pace_reports _).slot.trans (saturation_reports _ _ _ _).slot,
        (pace_reports _).lineFaults.trans (saturation_reports _ _ _ _).lineFaults⟩
    · exact ⟨(pace_reports _).slot, (pace_reports _).lineFaults⟩

end

theorem freeRetired_slot (u : UnitNo) (s : State) : (freeRetired u s).sbp.slot = s.sbp.slot := by
  have hdropped : (if (getU u s).barSent then freedFinal u s else offerDrop .ut u (freedFinal u s)).sbp.slot = s.sbp.slot := by
    split
    · rfl
    · rcases offerDrop_cases .ut u (freedFinal u s) with ⟨-, h⟩ | ⟨-, h⟩ <;> rw [h] <;> rfl
  cases hx : (getU u s).serial with
  | none =>
    unfold freeRetired
    simp only [hx]
    exact hdropped
  | some x =>
    rw [freeRetired_of_serial hx]
    exact (queueReleased_reports _ _ _ _).slot.trans hdropped

theorem usageSent_slot (b : UsageBody) (s : State) : (usageSent b s).sbp.slot = s.sbp.slot := by
  unfold usageSent
  simp only
  split
  · exact (pace_reports _).slot
  · split
    · exact (pace_reports _).slot.trans (freeRetired_slot _ _)
    · split <;> exact (pace_reports _).slot

/-! ### The transmit slot (R169, R177) -/

section
variable {k : Nat} {m : Notice} {sl : Slot} {rest : List Notice} {s : State}

theorem exec_transmitStart (hheld : s.held = false) : exec (.transmitStart k) s = .next (transmitStep k s) := unlessHeld_of_not_held hheld _

theorem transmitStep_early (h : k < 12) : transmitStep k s = { s with sbp := { s.sbp with quiet := k } } := by
  have hquiet : quietHeard k s = s.sbp.heardQuiet := by simp [quietHeard, h]
  have hmin : min 12 k = k := by omega
  unfold transmitStep
  simp only [if_pos h, lineAt, hquiet, hmin]

/-- The SBP has counted 12 recessive bit times (R169). -/
def lineQuiet (s : State) : State := { s with sbp := { s.sbp with quiet := 12, heardQuiet := true } }

theorem transmitStep_quiet (h : 12 ≤ k) : transmitStep k s = startSending (lineQuiet s) := by
  have hquiet : quietHeard k s = true := by simp [quietHeard, h]
  have hmin : min 12 k = 12 := by omega
  unfold transmitStep
  simp only [if_neg (Nat.not_lt.mpr h), lineAt, hquiet, hmin, lineQuiet]

theorem startSending_idle (hslot : s.sbp.slot = none) (hbox : s.sbp.outbox = []) : startSending s = s := by
  unfold startSending
  rw [hslot, hbox]

theorem startSending_again (hslot : s.sbp.slot = some sl) :
    startSending s = lineAt 0 true { s with sbp := { s.sbp with slot := some { sl with sending := true } } } := by
  unfold startSending
  rw [hslot]

theorem startSending_next (hslot : s.sbp.slot = none) (hbox : s.sbp.outbox = m :: rest) :
    startSending s = startNotice m (lineAt 0 true { s with sbp := { s.sbp with outbox := rest } }) := by
  unfold startSending
  rw [hslot, hbox]

theorem startNotice_fixed (h : ∀ u, m.body ≠ .usage u none) :
    startNotice m s = { s with sbp := { s.sbp with slot := some ⟨m, true⟩ } } := by
  unfold startNotice
  split
  next u hu => exact absurd hu (h u)
  next => rfl

theorem startNotice_usage {u : UnitNo} (h : m.body = .usage u none) : startNotice m s
    = modA u (fun a => { a with snapshot := a.snapshot.map (fun p => { p with notice := .onLine }) })
      { s with sbp := { s.sbp with slot := some ⟨{ m with body := .usage u (usageBody u s) }, true⟩ } } := by
  unfold startNotice
  rw [h]

theorem usageBody_of_snapshot {u : UnitNo} {x : Serial} {p : Snapshot} (hx : (getU u s).serial = some x) (hp : (getA u s).snapshot = some p) :
    usageBody u s = some { unit := u, serial := x, takeNo := p.takeNo, isFinal := p.isFinal, disputed := p.disputed, counters := p.counters } := by
  unfold usageBody
  rw [hx, hp]

/-- A line fault empties the slot and is counted (R171). -/
def faultCounted (s : State) : State :=
  { s with sbp := { s.sbp with slot := none, lineFaults := min 65535 (s.sbp.lineFaults + 1) } }

theorem exec_lineFault (hheld : s.held = false) (h : s.sbp.slot = some ⟨m, true⟩) :
    exec .lineFault s = .next (reportAborted m (faultCounted s)) := by
  refine (unlessHeld_of_not_held hheld _).trans (congrArg _ ?_)
  unfold faultStep
  rw [(sendingNotice_eq_some_iff _ _).mpr h]
  rfl

theorem reportAborted_usage {u : UnitNo} {b : UsageBody} (h : m.body = .usage u (some b)) : reportAborted m s = usageAborted b s := by
  unfold reportAborted
  rw [h]

theorem reportAborted_other (h : ∀ u b, m.body ≠ .usage u (some b)) : reportAborted m s = noteLost m s := by
  unfold reportAborted
  split
  next u b hb => exact absurd hb (h u b)
  next => rfl

/-- What the abortion of a notice leaves (R171). -/
theorem reportAborted_keeps (m : Notice) (s : State) : (reportAborted m s).ut = s.ut ∧ (reportAborted m s).sbp.slot = s.sbp.slot
    ∧ (reportAborted m s).sbp.lineFaults = s.sbp.lineFaults := by
  by_cases h : ∃ u b, m.body = .usage u (some b)
  · obtain ⟨u, b, h⟩ := h
    obtain ⟨hslot, hfaults⟩ := usageAborted_sbp b s
    rw [reportAborted_usage h]
    exact ⟨usageAborted_ut b s, hslot, hfaults⟩
  · push Not at h
    rw [reportAborted_other h]
    exact ⟨(noteLost_reports m s).ut, (noteLost_reports m s).slot, (noteLost_reports m s).lineFaults⟩

theorem noteLost_ucb (m : Notice) (s : State) : (noteLost m s).ucb = s.ucb := by
  unfold noteLost
  split
  case h_1 => split <;> rfl
  case h_3 => split <;> rfl
  all_goals rfl

theorem lose_eq (r : Reoffer) : r.lose = if r = .due ∨ r = .dueAgain then .dueAgain else .waiting := by
  cases r <;> rfl

theorem noteLost_alarm {j : AlarmKind} {c : Nat} {x : Option Serial} (h : m.body = .alarm j c x) : noteLost m s
    = if (getK j s).raised && (getK j s).subject == x then modK j (fun a => { a with reoffer := a.reoffer.lose }) s else s := by
  unfold noteLost
  rw [h]

theorem noteLost_claim {x : Serial} {l : Nat} {j : ClaimKind} {u : UnitNo} (h : m.body = .claim x l j u) : noteLost m s
    = if j = .held then s else { s with ec := { s.ec with lostClaims := s.ec.lostClaims ++ [⟨x, l, j, u, m.ref, false⟩] } } := by
  unfold noteLost
  rw [h]

end

/-- Settles O46: the start of a notice by the slot and the outbox, and what a line fault leaves with each producer. -/
theorem transmitSlotHoldsOneNotice : Obligations.TransmitSlotHoldsOneNotice := by
  unfold Obligations.TransmitSlotHoldsOneNotice
  refine ⟨fun k s hheld => ⟨fun hk => ?_, fun hk hslot hbox => ?_, fun sl hk hslot => ?_, fun m rest hk hslot hbox => ?_⟩,
    fun s m hheld hslot => ?_, fun s m hheld hslot => ?_⟩
  · rw [exec_transmitStart hheld, transmitStep_early hk]
  · rw [exec_transmitStart hheld, transmitStep_quiet hk, startSending_idle (s := lineQuiet s) hslot hbox]
    rfl
  · rw [exec_transmitStart hheld, transmitStep_quiet hk, startSending_again (s := lineQuiet s) hslot]
    rfl
  · let v := lineAt 0 true { lineQuiet s with sbp := { (lineQuiet s).sbp with outbox := rest } }
    have hexec : exec (.transmitStart k) s = .next (startNotice m v) := by
      rw [exec_transmitStart hheld, transmitStep_quiet hk, startSending_next (s := lineQuiet s) hslot hbox]
    by_cases hu : ∃ u, m.body = .usage u none
    · obtain ⟨u, hu⟩ := hu
      rw [startNotice_usage (s := v) hu] at hexec
      refine ⟨_, _, hexec, rfl, rfl, rfl, rfl, rfl, fun h => absurd hu (h u), fun u' x p hu' hx hp => ?_⟩
      rw [hu'] at hu
      cases hu
      refine ⟨congrArg _ (usageBody_of_snapshot (s := v) hx hp), ?_⟩
      rw [getA_modA_same]
      exact congrArg (Option.map _) hp
    · push Not at hu
      rw [startNotice_fixed (s := v) hu] at hexec
      exact ⟨_, m.body, hexec, rfl, rfl, rfl, rfl, rfl, fun _ => ⟨rfl, rfl⟩, fun u x p h => absurd h (hu u)⟩
  · refine (unlessHeld_of_not_held hheld _).trans (congrArg _ ?_)
    unfold arbitrationStep
    rw [hslot]
    rfl
  · let v := faultCounted s
    obtain ⟨hut, hslot', hfaults⟩ := reportAborted_keeps m v
    refine ⟨_, exec_lineFault hheld hslot, hslot', hfaults, hut, fun hno => ?_, fun j c x hm => ⟨fun hr hx => ?_, fun hno => ?_⟩,
      fun x r hm => ?_, fun x l j u hm hj => ?_, fun x l u hm => ?_, fun c r hm => ?_, fun u b p hm hp hc => ?_,
      fun u b p hm hp hc hn hx ht => ?_⟩
    · rw [reportAborted_other fun u b => hno u (some b)]
      exact ⟨noteLost_outbox m v, noteLost_ucb m v⟩
    · have hcond : ((getK j v).raised && (getK j v).subject == x) = true := by
        show ((getK j s).raised && (getK j s).subject == x) = true
        simp [hr, hx]
      rw [reportAborted_other (by simp [hm]), noteLost_alarm hm, if_pos hcond, getK_modK_same, lose_eq]
      rfl
    · have hcond : ¬((getK j v).raised && (getK j v).subject == x) = true := by
        show ¬((getK j s).raised && (getK j s).subject == x) = true
        rcases hno with h | h <;> simp [h]
      rw [reportAborted_other (by simp [hm]), noteLost_alarm hm, if_neg hcond]
      rfl
    · rw [reportAborted_other (by simp [hm])]
      unfold noteLost
      rw [hm]
      rfl
    · rw [reportAborted_other (by simp [hm]), noteLost_claim hm, if_neg hj]
      rfl
    · rw [reportAborted_other (by simp [hm]), noteLost_claim hm, if_pos rfl]
      rfl
    · rw [reportAborted_other (by simp [hm])]
      unfold noteLost
      rw [hm]
      simp only [lose_eq]
      rfl
    · rw [reportAborted_usage hm]
      exact usageAborted_moved (s := v) hp hc
    · rw [reportAborted_usage hm, usageAborted_closed (usageMatch_found (s := v) hp hn hx ht) hc]
      have hmerged : MergedFinal b.unit p s (pace (mergeFinal b.unit p .unqueued (oneOutLess v))) :=
        (mergedFinal_mergeFinal b.unit p .unqueued (oneOutLess v)).pace
      have hoff := mergeFinal_notOnLine (p := p) b.unit (oneOutLess v)
      obtain ⟨-, -, q, hq, -⟩ := id hmerged
      rw [hq] at hoff
      exact ⟨hmerged, q, hq, by simpa using hoff⟩

/-- Settles O47: the claim settle of a claiming notice, and the snapshot of a usage notice by whether it is final. -/
theorem sentNoticeReachesItsProducer : Obligations.SentNoticeReachesItsProducer := by
  unfold Obligations.SentNoticeReachesItsProducer
  intro s m hheld hslot
  have hexec : exec .noticeSent s = .next (reportSent m (emptySlot s)) := by
    refine (unlessHeld_of_not_held hheld _).trans (congrArg _ ?_)
    unfold sentStep
    rw [(sendingNotice_eq_some_iff _ _).mpr hslot]
    rfl
  refine ⟨_, hexec, ?slot, fun x l u hm hstate hstarted href => ?settle, fun v b p hm hp hn hx ht => ?usage, fun hclaim husage => ?other⟩
  case slot =>
    unfold reportSent
    split
    · unfold claimingSent
      split <;> rfl
    next v b hb => exact usageSent_slot b _
    next => rfl
  case settle =>
    have hstep : reportSent m (emptySlot s) = modU u (fun r => { r with claimSettle := 80, settleStarted := true }) (emptySlot s) := by
      unfold reportSent
      rw [hm]
      exact if_pos ⟨hstate, hstarted, href⟩
    rw [hstep]
    exact ⟨getU_modU_same _ _ _, modU_otherUnits u _ (emptySlot s), rfl⟩
  case other =>
    unfold reportSent
    split
    next x l u hb => exact absurd hb (hclaim x l u)
    next v b hb => exact absurd hb (husage v b)
    next => rfl
  case usage =>
    let w := emptySlot s
    have hmatch : usageMatch b (oneOutLess w) = some p := usageMatch_found (s := w) hp hn hx ht
    have hstep : reportSent m (emptySlot s) = usageSent b w := by
      unfold reportSent
      rw [hm]
    rw [hstep]
    cases hfinal : p.isFinal with
    | true =>
      obtain ⟨d, q, r, hsent, hroom, hfull⟩ := freeRetired_writes (u := b.unit) (s := oneOutLess w) hx
      have rp := r.trans (pace_reports _)
      rw [usageSent_freed hmatch hfinal]
      have hU : getU b.unit (pace (freeRetired b.unit (oneOutLess w)))
          = { freedRecord 4000 with dropPending := !(getU b.unit s).barSent, dropWait := d } := (rp.getU _).trans (getU_setU_same _ _ _)
      have htli : (pace (freeRetired b.unit (oneOutLess w))).tli = { s.tli with queue := q } := rp.tli
      have hother : OtherUnitsSame b.unit s (pace (freeRetired b.unit (oneOutLess w))) := by
        refine OtherUnitsSame.trans ?_ (rp.otherUnits _)
        exact ((modA_otherUnits b.unit (fun _ => Account.blank) w).trans otherUnits_of_tables).trans (setU_otherUnits b.unit _ _)
      have hblank : getA b.unit (pace (freeRetired b.unit (oneOutLess w))) = Account.blank := 
        rp.search.blank (getA_modA_same b.unit (fun _ => Account.blank) w)
      refine ⟨hother, fun _ => ⟨?_, hblank, fun hb => ?_, fun hb hlt => ?_, fun hb hge => ?_, fun h6 => ?_⟩, fun h => absurd h (by decide),
        fun h => absurd h (by decide)⟩
      · rw [hU]
        rfl
      · obtain ⟨rfl, rfl⟩ := hsent hb
        rw [hU, htli]
        exact ⟨rfl, rfl⟩
      · obtain ⟨rfl, rfl⟩ := hroom hb hlt
        rw [hU, htli]
        exact ⟨enqueue_perm _ _, rfl⟩
      · obtain ⟨rfl, rfl⟩ := hfull hb hge
        rw [hU, htli]
        exact ⟨rfl, rfl⟩
      · obtain ⟨hin, hleft⟩ := freeRetired_inOutbox (u := b.unit) (s := oneOutLess w) hx h6
        exact hin.pace hleft
    | false =>
      have hgone : OtherUnitsSame b.unit s (snapshotGone b.unit w) := modA_otherUnits b.unit _ (oneOutLess w)
      have hA : getA b.unit (snapshotGone b.unit w) = { getA b.unit s with snapshot := none } := getA_modA_same _ _ _
      cases hclose : p.closePending with
      | false =>
        rw [usageSent_gone hmatch hfinal hclose]
        have r := pace_reports (snapshotGone b.unit w)
        have hsnap := r.snapshot b.unit
        rw [hA, Option.map_none, Option.map_eq_none_iff] at hsnap
        exact ⟨hgone.trans (r.otherUnits _), fun h => absurd h (by decide), fun _ _ => ⟨r.getU _, hsnap, by rw [r.live, hA]⟩,
          fun _ h => absurd h (by decide)⟩
      | true =>
        rw [usageSent_closed hmatch hfinal hclose]
        have r := pace_reports (makeFinal b.unit (snapshotGone b.unit w))
        have hmoved := (movedFinal_makeFinal b.unit (snapshotGone b.unit w)).pace
        refine ⟨(hgone.trans (modA_otherUnits b.unit _ _)).trans (r.otherUnits _), fun h => absurd h (by decide),
          fun _ h => absurd h (by decide), fun _ _ => ⟨r.getU _, ?_⟩⟩
        unfold MovedFinal at hmoved ⊢
        rw [hA] at hmoved
        exact hmoved

end Sys2Proof.Machine

/-!
PROOFS. The traffic port (O10).
-/
namespace Sys2Proof.Machine

-- One proof after another, as in the tests: side by side, the proofs of one text hold more stacks than the check's memory has room for.
set_option Elab.async false

/-! ### One packet (R21, R138) -/

/-- The packet has an ACTIVE record and is short enough (R21). -/
def deliverable (s : State) (p : Packet) : Bool :=
  decide (p.data.length ≤ 9600) && allUnits.any (fun u => p.tag == u.val && (getU u s).state == .active)

section
variable {u : UnitNo} {p : Packet} {s t : State}

theorem unitOf_val (u : UnitNo) : unitOf u.val = some u := by simp [unitOf]

theorem unitOf_eq_some {n : Nat} (h : unitOf n = some u) : n = u.val := by
  unfold unitOf at h
  split at h
  · exact congrArg Fin.val (Option.some.inj h)
  · cases h

theorem deliverable_iff : deliverable s p = true ↔ p.data.length ≤ 9600 ∧ ∃ u : UnitNo, p.tag = u.val ∧ (getU u s).state = .active := by
  simp [deliverable, mem_allUnits]

theorem deliverable_congr (h : t.ut = s.ut) : deliverable t = deliverable s := by
  funext p
  unfold deliverable
  simp only [getU_congr h]

theorem discardsPacket_eq : discardsPacket p s = !deliverable s p := by
  rw [Bool.eq_iff_iff, Bool.not_eq_true', ← Bool.not_eq_true, deliverable_iff]
  unfold discardsPacket
  cases htag : unitOf p.tag with
  | none =>
    have hno : ¬∃ u : UnitNo, p.tag = u.val ∧ (getU u s).state = .active := by
      rintro ⟨u, hu, -⟩
      rw [hu, unitOf_val] at htag
      cases htag
    simp [hno]
  | some u =>
    have htag' := unitOf_eq_some htag
    have hiff : (∃ v : UnitNo, p.tag = v.val ∧ (getU v s).state = .active) ↔ (getU u s).state = .active := by
      refine ⟨?_, fun h => ⟨u, htag', h⟩⟩
      rintro ⟨v, hv, h⟩
      obtain rfl : u = v := Fin.ext (htag'.symm.trans hv)
      exact h
    rw [hiff]
    simp only [Bool.or_eq_true, decide_eq_true_eq, bne_iff_ne, ne_eq, not_and]
    constructor
    · rintro (h | h)
      · exact fun hle => absurd hle (Nat.not_le.mpr h)
      · exact fun _ => h
    · intro h
      rcases Nat.lt_or_ge 9600 p.data.length with hlt | hge
      · exact .inl hlt
      · exact .inr (h hge)

/-- The bytes of a placed packet in its unit's down counter (R138). -/
theorem countPlaced_reports (hu : p.tag = u.val) :
    OnlyReports (modA u (fun a => { a with live := attributeDown s.ucb.band p.data.length a.live }) s) (countPlaced p s) := by
  unfold countPlaced
  rw [hu, unitOf_val]
  exact saturation_reports _ _ _ _

/-- What the framer leaves of all else at a placed packet. -/
theorem countPlaced_frame (p : Packet) (s : State) : ∃ a, OnlyReports { s with ucb := { s.ucb with accounts := a } } (countPlaced p s) := by
  cases h : unitOf p.tag with
  | none =>
    have hsame : countPlaced p s = s := by
      unfold countPlaced
      rw [h]
    rw [hsame]
    exact ⟨s.ucb.accounts, .refl s⟩
  | some u => exact ⟨_, countPlaced_reports (unitOf_eq_some h)⟩

/-- The down counter of unit `u` in band `b`. -/
def downCount (u : UnitNo) (b : Band) (s : State) : Nat := (getA u s).live.down.get b

theorem downCount_countPlaced (hv : deliverable s p = true) : downCount u s.ucb.band (countPlaced p s)
    = if p.tag = u.val then min 281474976710655 (downCount u s.ucb.band s + p.data.length) else downCount u s.ucb.band s := by
  obtain ⟨-, v, hv, -⟩ := deliverable_iff.mp hv
  have r := countPlaced_reports (s := s) hv
  unfold downCount
  rw [r.live, getA_modA, hv]
  by_cases h : v = u
  · subst h
    rw [if_pos rfl, if_pos rfl]
    exact (vector_get_set _ _ _ _).trans (if_pos rfl)
  · rw [if_neg h, if_neg (fun he => h (Fin.ext he))]

end

/-! ### The framer (R21) -/

section
variable {p : Packet} {rest : List Packet} {room : Nat} {s : State}

theorem framePackets_discards (h : deliverable s p = false) : framePackets room (p :: rest) s = framePackets room rest (countDiscard s) := by
  have hd : discardsPacket p s = true := by rw [discardsPacket_eq, h]; rfl
  rw [framePackets, if_pos hd]

theorem framePackets_places (h : deliverable s p = true) (hfit : p.data.length + 3 ≤ room) : framePackets room (p :: rest) s
    = (p :: (framePackets (room - (p.data.length + 3)) rest (countPlaced p s)).1,
      (framePackets (room - (p.data.length + 3)) rest (countPlaced p s)).2) := by
  have hd : ¬discardsPacket p s = true := by rw [discardsPacket_eq, h]; simp
  rw [framePackets, if_neg hd, if_pos hfit]

theorem framePackets_stops (h : deliverable s p = true) (hfull : ¬p.data.length + 3 ≤ room) :
    framePackets room (p :: rest) s = ([], leaveStream (p :: rest) true s) := by
  have hd : ¬discardsPacket p s = true := by rw [discardsPacket_eq, h]; simp
  rw [framePackets, if_neg hd, if_neg hfull]

end

/-- The bytes of the placed packets of unit `u`. -/
def placedBytes (u : UnitNo) (l : List Packet) : Nat := ((l.filter (fun p => p.tag == u.val)).map (fun p => p.data.length)).sum

/-- What the framer has done with the packets `l` and `room` bytes: `taken` left the stream, of which `placed` fitted and were
deliverable, and the others were counted. -/
structure PacketsFramed (room : Nat) (l : List Packet) (s : State) (placed : List Packet) (t : State) : Prop where
  fits    : (placed.map (fun p => p.data.length + 3)).sum ≤ room
  split   : ∃ taken, l = taken ++ t.tli.stream ∧ placed = taken.filter (deliverable s)
  holdOff : t.tli.holdOff = true ↔ t.tli.stream ≠ []
  counted : ∃ d, placed.length + d + t.tli.stream.length = l.length
    ∧ t.tli.undeliverable = if d = 0 then s.tli.undeliverable else min 4294967295 (s.tli.undeliverable + d)
  head    : ∀ p ∈ t.tli.stream.head?, deliverable s p = true ∧ room < (placed.map (fun q => q.data.length + 3)).sum + p.data.length + 3
  down    : ∀ u, downCount u s.ucb.band s ≤ 281474976710655 →
    downCount u s.ucb.band t = min 281474976710655 (downCount u s.ucb.band s + placedBytes u placed)

theorem packetsFramed_nil {room : Nat} {s : State} : PacketsFramed room [] s [] (leaveStream [] false s) where
  fits := Nat.zero_le _
  split := ⟨[], rfl, rfl⟩
  holdOff := by simp [leaveStream]
  counted := ⟨0, rfl, rfl⟩
  head := by simp [leaveStream]
  down := fun _ h => (min_eq_right h).symm

theorem packetsFramed_stopped {room : Nat} {p : Packet} {rest : List Packet} {s : State} (h : deliverable s p = true)
    (hfull : ¬p.data.length + 3 ≤ room) : PacketsFramed room (p :: rest) s [] (leaveStream (p :: rest) true s) where
  fits := Nat.zero_le _
  split := ⟨[], rfl, rfl⟩
  holdOff := by simp [leaveStream]
  counted := ⟨0, by simp [leaveStream], rfl⟩
  head := fun q hq => by
    obtain rfl : p = q := Option.some.inj hq
    refine ⟨h, ?_⟩
    simp
    omega
  down := fun _ h => (min_eq_right h).symm

theorem PacketsFramed.discards {room : Nat} {p : Packet} {rest placed : List Packet} {s t : State} (hp : deliverable s p = false)
    (h : PacketsFramed room rest (countDiscard s) placed t) : PacketsFramed room (p :: rest) s placed t where
  fits := h.fits
  split := by
    obtain ⟨taken, hl, hplaced⟩ := h.split
    exact ⟨p :: taken, by rw [hl]; rfl, by rw [hplaced, List.filter_cons_of_neg (by simp [hp])]; rfl⟩
  holdOff := h.holdOff
  counted := by
    obtain ⟨d, hlen, hcount⟩ := h.counted
    refine ⟨d + 1, by rw [List.length_cons, ← hlen]; omega, ?_⟩
    have hone : (countDiscard s).tli.undeliverable = min 4294967295 (s.tli.undeliverable + 1) := rfl
    rw [hcount, hone, if_neg (Nat.succ_ne_zero d)]
    split
    next hd => rw [hd]
    next => omega
  head := h.head
  down := h.down

theorem PacketsFramed.places {room : Nat} {p : Packet} {rest placed : List Packet} {s t : State} (hp : deliverable s p = true)
    (hfit : p.data.length + 3 ≤ room) (h : PacketsFramed (room - (p.data.length + 3)) rest (countPlaced p s) placed t) :
    PacketsFramed room (p :: rest) s (p :: placed) t := by
  obtain ⟨a, r⟩ := countPlaced_frame p s
  have htli : (countPlaced p s).tli = s.tli := r.tli
  have hband : (countPlaced p s).ucb.band = s.ucb.band := r.band
  have hdeliverable : deliverable (countPlaced p s) = deliverable s := deliverable_congr r.ut
  have hcons : ∀ f : Packet → Nat, ((p :: placed).map f).sum = f p + (placed.map f).sum := fun f => by simp
  refine ⟨?_, ?_, h.holdOff, ?_, fun q hq => ?_, fun u hle => ?_⟩
  · have := h.fits
    rw [hcons]
    omega
  · obtain ⟨taken, hl, hplaced⟩ := h.split
    exact ⟨p :: taken, by rw [hl]; rfl, by rw [List.filter_cons_of_pos hp, hplaced, hdeliverable]⟩
  · obtain ⟨d, hlen, hcount⟩ := h.counted
    exact ⟨d, by rw [List.length_cons, List.length_cons, ← hlen]; omega, by rw [hcount, htli]⟩
  · obtain ⟨hd, hroom⟩ := h.head q hq
    rw [hdeliverable] at hd
    refine ⟨hd, ?_⟩
    rw [hcons]
    omega
  · have hdown := downCount_countPlaced (u := u) hp
    have hbytes : placedBytes u (p :: placed) = (if p.tag = u.val then p.data.length else 0) + placedBytes u placed := by
      unfold placedBytes
      by_cases htag : p.tag = u.val
      · rw [List.filter_cons_of_pos (by simp [htag]), if_pos htag]
        simp
      · rw [List.filter_cons_of_neg (by simp [htag]), if_neg htag, Nat.zero_add]
    have hstep := h.down u
    rw [hband, hdown] at hstep
    rw [hbytes]
    split at hstep
    next htag =>
      rw [hstep (Nat.min_le_left _ _), if_pos htag]
      omega
    next htag => rw [hstep hle, if_neg htag, Nat.zero_add]

/-- The framer, packet by packet. -/
theorem framePackets_framed (l : List Packet) (room : Nat) (s : State) :
    PacketsFramed room l s (framePackets room l s).1 (framePackets room l s).2 := by
  induction l generalizing room s with
  | nil => exact packetsFramed_nil
  | cons p rest ih =>
    cases hp : deliverable s p with
    | false =>
      rw [framePackets_discards hp]
      exact (ih room (countDiscard s)).discards hp
    | true =>
      by_cases hfit : p.data.length + 3 ≤ room
      · rw [framePackets_places hp hfit]
        exact (ih _ (countPlaced p s)).places hp hfit
      · rw [framePackets_stops hp hfit]
        exact packetsFramed_stopped hp hfit

/-- Settles O10: the arrival, and the framer's account of the stream. -/
theorem trafficPortPlacesPackets : Obligations.TrafficPortPlacesPackets := by
  unfold Obligations.TrafficPortPlacesPackets
  refine ⟨fun tag data s hheld => ⟨fun hopen => ?_, fun hoff => ?_⟩, fun room l s => ?_⟩
  · refine (unlessHeld_of_not_held hheld _).trans (congrArg _ ?_)
    simp [packetStep, hopen]
  · refine (unlessHeld_of_not_held hheld _).trans (congrArg _ ?_)
    simp [packetStep, hoff]
  · have h := framePackets_framed l room s
    obtain ⟨taken, hl, hplaced⟩ := h.split
    obtain ⟨d, hlen, hcount⟩ := h.counted
    have htaken : l.take (l.length - (framePackets room l s).2.tli.stream.length) = taken := by
      have htake : l.length - (framePackets room l s).2.tli.stream.length = taken.length := by
        have := congrArg List.length hl
        rw [List.length_append] at this
        omega
      rw [htake]
      exact (congrArg (List.take taken.length) hl).trans (List.take_left' rfl)
    have hsub : taken.Sublist l := by
      rw [hl]
      exact List.sublist_append_left _ _
    refine ⟨d, _, _, rfl, h.fits, ?_, ⟨taken, hl.symm⟩, ?_, hlen, fun h0 => by rw [hcount, if_pos h0], fun hpos => ?_, h.holdOff,
      fun p hp => ?_, fun u hle => h.down u hle⟩
    · rw [hplaced]
      exact List.filter_sublist.trans hsub
    · rw [htaken]
      exact hplaced
    · rw [hcount, if_neg (Nat.ne_of_gt hpos)]
    · obtain ⟨hd, hroom⟩ := h.head p hp
      obtain ⟨hlong, hunit⟩ := deliverable_iff.mp hd
      exact ⟨hlong, hunit, hroom⟩

end Sys2Proof.Machine

/-!
PROOFS. The assembly of a frame: what each part of it writes, and the orders it carries (O9).
-/
namespace Sys2Proof.Machine

-- One proof after another, as in the tests: side by side, the proofs of one text hold more stacks than the check's memory has room for.
set_option Elab.async false

/-! ### Orders that leave the queue (R11, R13, R30, R59) -/

/-- What the leaving of order `o` does to record `u` (R30). -/
def dropTold (u : UnitNo) (o : PuOrder) (r : UnitRecord) : UnitRecord := if o = .dropUnit u then { r with dropPending := false } else r

/-- What the carriage of order `o` in frame `n` does to what the EC holds beside record `u` (R59, R67). -/
def carriageTold (n : Nat) (u : UnitNo) (o : PuOrder) (e : EcUnit) : EcUnit :=
  if isAssignFor u o || isEqdFor u o then { e with lastCarriage := some n } else e

section
variable {u : UnitNo} {n : Nat} {s : State}

theorem getU_modU_dropTold (u v : UnitNo) (s : State) :
    getU u (modU v (fun r => { r with dropPending := false }) s) = dropTold u (.dropUnit v) (getU u s) := by
  rw [getU_modU]
  unfold dropTold
  by_cases h : v = u
  · subst h
    rw [if_pos rfl, if_pos rfl]
  · rw [if_neg h, if_neg (fun he => h (PuOrder.dropUnit.inj he))]

theorem getU_purgedOrder (o : PuOrder) (s : State) : getU u (purgedOrder o s) = dropTold u o (getU u s) := by
  cases o with
  | dropUnit v => exact getU_modU_dropTold u v s
  | _ => rfl

theorem purgedOrder_frame (o : PuOrder) (s : State) : purgedOrder o s = { s with ut := (purgedOrder o s).ut } := by
  cases o <;> rfl

/-- The carriage of an order, told to the UT and the EC. -/
def orderTold (n : Nat) (o : PuOrder) (s : State) : State :=
  match o with
  | .assign u _ _ => modE u (fun e => { e with lastCarriage := some n }) s
  | .eqd u _ => modE u (fun e => { e with lastCarriage := some n }) s
  | .dropUnit u => modU u (fun r => { r with dropPending := false }) s
  | _ => s

theorem getU_orderTold (o : PuOrder) (s : State) : getU u (orderTold n o s) = dropTold u o (getU u s) := by
  cases o with
  | dropUnit v => exact getU_modU_dropTold u v s
  | _ => rfl

theorem getE_orderTold (o : PuOrder) (s : State) : getE u (orderTold n o s) = carriageTold n u o (getE u s) := by
  have hmod : ∀ v, getE u (modE v (fun e => { e with lastCarriage := some n }) s)
      = if (v == u) = true then { getE u s with lastCarriage := some n } else getE u s := fun v => by
    rw [getE_modE]
    by_cases h : v = u
    · subst h; simp
    · simp [h]
  cases o with
  | assign v x q => exact (hmod v).trans (by simp [carriageTold, isAssignFor, isEqdFor])
  | eqd v q => exact (hmod v).trans (by simp [carriageTold, isAssignFor, isEqdFor])
  | _ => rfl

theorem orderTold_frame (n : Nat) (o : PuOrder) (s : State) :
    orderTold n o s = { s with ut := (orderTold n o s).ut, ec := { s.ec with units := (orderTold n o s).ec.units } } := by
  cases o <;> rfl

/-! ### What carriage does to the search (R118 to R120) -/

/-- The step has been carried in round `n`. -/
def stepEnded (n : Nat) (m : Isolation) : Isolation :=
  { m with step := if m.restep then .idle else .settling, carriage := n, samples := 0, litSamples := 0,
           clearings := if m.stepClears = [] then m.clearings else m.clearings ++ [⟨.units m.stepClears, false⟩], stepClears := [] }

/-- A closing offer has been carried in round `n`. -/
def closingEnded (n : Nat) (c : ClearSet) (m : Isolation) : Isolation :=
  { m with closingOut := m.closingOut - 1, clearings := m.clearings ++ [⟨c, false⟩],
           countFrom := if m.closingOut = 1 ∧ m.closing = [] then .fromRound (wrap16 n) else m.countFrom }

/-- What the carriage of an order with this mark in round `n` does to the search. -/
def markTold (n : Nat) (m : Isolation) (q : QueuedOrder) : Isolation :=
  match q.mark with
  | .plain => m
  | .stepEnd => if m.step = .toCarry ∨ m.step = .emptied then stepEnded n m else m
  | .closingEnd c => if m.closingOut = 0 then m else closingEnded n c m

theorem stepCarried_iso (n : Nat) (s : State) :
    stepCarried n s = modIso (fun m => if m.step = .toCarry ∨ m.step = .emptied then stepEnded n m else m) s := by
  unfold stepCarried
  by_cases h : s.lm.iso.step = .toCarry ∨ s.lm.iso.step = .emptied
  · rw [if_pos h]
    simp only [modIso, if_pos h, stepEnded]
  · rw [if_neg h]
    simp only [modIso, if_neg h]

theorem closingCarried_iso (n : Nat) (c : ClearSet) (s : State) :
    closingCarried n c s = modIso (fun m => if m.closingOut = 0 then m else closingEnded n c m) s := by
  unfold closingCarried
  by_cases h : s.lm.iso.closingOut = 0
  · rw [if_pos h]
    simp only [modIso, if_pos h]
  · rw [if_neg h]
    simp only [modIso, if_neg h, closingEnded]

theorem orderCarried_eq (n : Nat) (s : State) (q : QueuedOrder) :
    orderCarried n s q = modIso (fun m => markTold n m q) (orderTold n q.order s) := by
  have hmark : orderCarried n s q = match q.mark with
      | .plain => orderTold n q.order s
      | .stepEnd => stepCarried n (orderTold n q.order s)
      | .closingEnd c => closingCarried n c (orderTold n q.order s) := rfl
  rw [hmark]
  unfold markTold
  cases hq : q.mark with
  | plain => rfl
  | stepEnd => exact stepCarried_iso n _
  | closingEnd c => exact closingCarried_iso n c _

/-! ### The orders of a frame -/

theorem purgeOrders_eq (s : State) : purgeOrders s
    = if s.sc.phase = .serving ∧ s.tli.lastFrame.any (fun f => f.mark) = true then
        (s.tli.queue.filter (fun q => isPurged q.order)).foldl (fun t q => purgedOrder q.order t)
          (s.withQueue (s.tli.queue.filter (fun q => !isPurged q.order)))
      else s := by
  unfold purgeOrders restartMark
  by_cases h : s.sc.phase = .serving ∧ s.tli.lastFrame.any (fun f => f.mark) = true
  · rw [if_pos h]
    obtain ⟨hp, hl⟩ := h
    rw [if_pos (by simp [hp, hl])]
    rfl
  · rw [if_neg h, if_neg]
    simpa using h

/-- A run of writes each of which changes the unit records alone. -/
theorem foldl_records_frame {α : Type} {f : State → α → State} (hf : ∀ s a, f s a = { s with ut := (f s a).ut }) (l : List α) (s : State) :
    l.foldl f s = { s with ut := (l.foldl f s).ut } := by
  induction l generalizing s with
  | nil => rfl
  | cons a l ih =>
    rw [List.foldl_cons, ih, hf s a]

theorem purgeOrders_frame (s : State) :
    purgeOrders s = { s with ut := (purgeOrders s).ut, tli := { s.tli with queue := (purgeOrders s).tli.queue } } := by
  rw [purgeOrders_eq]
  split
  · rw [foldl_records_frame (f := fun t q => purgedOrder (QueuedOrder.order q) t) (fun t q => purgedOrder_frame q.order t)]
    rfl
  · rfl

/-- A run over orders, each of which is told to record `u`. -/
theorem getU_foldl_told {f : State → QueuedOrder → State} (hf : ∀ s q, getU u (f s q) = dropTold u q.order (getU u s))
    (l : List QueuedOrder) (s : State) :
    getU u (l.foldl f s) = if ∃ q ∈ l, q.order = .dropUnit u then { getU u s with dropPending := false } else getU u s := by
  induction l generalizing s with
  | nil => simp
  | cons q l ih =>
    rw [List.foldl_cons, ih, hf]
    unfold dropTold
    by_cases hq : q.order = .dropUnit u
    · simp [hq]
    · simp [hq]

theorem getE_foldl_told {f : State → QueuedOrder → State} (hf : ∀ s q, getE u (f s q) = carriageTold n u q.order (getE u s))
    (l : List QueuedOrder) (s : State) : getE u (l.foldl f s)
      = if ∃ q ∈ l, (isAssignFor u q.order || isEqdFor u q.order) = true then { getE u s with lastCarriage := some n } else getE u s := by
  induction l generalizing s with
  | nil => simp
  | cons q l ih =>
    rw [List.foldl_cons, ih, hf]
    unfold carriageTold
    by_cases hq : (isAssignFor u q.order || isEqdFor u q.order) = true
    · simp only [hq, if_true, List.exists_mem_cons_iff, true_or]
      split <;> rfl
    · simp only [hq, Bool.false_eq_true, if_false, List.exists_mem_cons_iff, false_or]

/-- The orders carried in frame `n`, before a step without orders. -/
def ordersTold (n : Nat) (s : State) : State := (frameOrders s).foldl (orderCarried n) (s.withQueue (s.tli.queue.drop 8))

theorem orderCarried_frame (n : Nat) (s : State) (q : QueuedOrder) : orderCarried n s q
    = { s with ut := (orderCarried n s q).ut, ec := { s.ec with units := (orderCarried n s q).ec.units },
               lm := { s.lm with iso := (orderCarried n s q).lm.iso } } := by
  rw [orderCarried_eq, orderTold_frame]
  rfl

theorem foldl_orderCarried_frame (n : Nat) (l : List QueuedOrder) (s : State) : l.foldl (orderCarried n) s
    = { s with ut := (l.foldl (orderCarried n) s).ut, ec := { s.ec with units := (l.foldl (orderCarried n) s).ec.units },
               lm := { s.lm with iso := (l.foldl (orderCarried n) s).lm.iso } } := by
  induction l generalizing s with
  | nil => rfl
  | cons q l ih => rw [List.foldl_cons, ih, orderCarried_frame n s q]

theorem foldl_orderCarried_iso (n : Nat) (l : List QueuedOrder) (s : State) :
    (l.foldl (orderCarried n) s).lm.iso = l.foldl (markTold n) s.lm.iso := by
  induction l generalizing s with
  | nil => rfl
  | cons q l ih =>
    rw [List.foldl_cons, List.foldl_cons, ih, orderCarried_eq, orderTold_frame]
    rfl

/-- A step without orders counts as carried (R119). -/
def emptyStepEnded (n : Nat) (m : Isolation) : Isolation := if m.step = .emptied then stepEnded n m else m

theorem carryOrders_eq (n : Nat) (s : State) : carryOrders n s = modIso (emptyStepEnded n) (ordersTold n s) := by
  have h : carryOrders n s = if (ordersTold n s).lm.iso.step = .emptied then stepCarried n (ordersTold n s) else ordersTold n s := rfl
  rw [h]
  unfold emptyStepEnded
  by_cases he : (ordersTold n s).lm.iso.step = .emptied
  · rw [if_pos he, stepCarried_iso]
    simp only [modIso, he, or_true, if_true]
  · rw [if_neg he]
    simp only [modIso, if_neg he]

theorem carryOrders_frame (n : Nat) (s : State) : carryOrders n s
    = { s with ut := (carryOrders n s).ut, ec := { s.ec with units := (carryOrders n s).ec.units },
               lm := { s.lm with iso := (carryOrders n s).lm.iso }, tli := { s.tli with queue := s.tli.queue.drop 8 } } := by
  rw [carryOrders_eq, ordersTold, foldl_orderCarried_frame]
  rfl

theorem carryOrders_iso (n : Nat) (s : State) :
    (carryOrders n s).lm.iso = emptyStepEnded n ((frameOrders s).foldl (markTold n) s.lm.iso) := by
  rw [carryOrders_eq]
  show emptyStepEnded n (ordersTold n s).lm.iso = _
  rw [ordersTold, foldl_orderCarried_iso]
  rfl

theorem getU_carryOrders : getU u (carryOrders n s)
    = if ∃ q ∈ frameOrders s, q.order = .dropUnit u then { getU u s with dropPending := false } else getU u s := by
  rw [carryOrders_eq]
  refine getU_foldl_told (fun t q => ?_) (frameOrders s) (s.withQueue (s.tli.queue.drop 8))
  rw [orderCarried_eq]
  exact getU_orderTold q.order t

theorem getE_carryOrders : getE u (carryOrders n s) = if ∃ q ∈ frameOrders s, (isAssignFor u q.order || isEqdFor u q.order) = true then
    { getE u s with lastCarriage := some n } else getE u s := by
  rw [carryOrders_eq]
  refine getE_foldl_told (fun t q => ?_) (frameOrders s) (s.withQueue (s.tli.queue.drop 8))
  rw [orderCarried_eq]
  exact getE_orderTold q.order t

/-! ### The correction holds (R67) -/

theorem lowerHolds_frame (s : State) : lowerHolds s = { s with ut := (lowerHolds s).ut } :=
  foldl_records_frame (fun t v => by split <;> rfl) allUnits s

theorem getU_foldl_lowered (l : List UnitNo) (hl : l.Nodup) (s : State) :
    getU u (l.foldl (fun t v => if eqdQueued v t then t else modU v (fun r => { r with corrHold := r.corrHold - 1 }) t) s)
      = if u ∈ l ∧ eqdQueued u s = false then { getU u s with corrHold := (getU u s).corrHold - 1 } else getU u s := by
  induction l generalizing s with
  | nil => simp
  | cons v l ih =>
    obtain ⟨hv, hl⟩ := List.nodup_cons.mp hl
    rw [List.foldl_cons, ih hl]
    have hqueued : eqdQueued u (if eqdQueued v s then s else modU v (fun r => { r with corrHold := r.corrHold - 1 }) s) = eqdQueued u s := by
      split <;> rfl
    rw [hqueued]
    by_cases huv : v = u
    · subst huv
      rw [if_neg (fun h => hv h.1)]
      cases hq : eqdQueued v s with
      | true => simp
      | false => simp [getU_modU_same]
    · have hsame : getU u (if eqdQueued v s then s else modU v (fun r => { r with corrHold := r.corrHold - 1 }) s) = getU u s := by
        split
        · rfl
        · rw [getU_modU, if_neg huv]
      rw [hsame]
      simp [Ne.symm huv]

theorem getU_lowerHolds : getU u (lowerHolds s)
    = if eqdQueued u s = false then { getU u s with corrHold := (getU u s).corrHold - 1 } else getU u s := by
  unfold lowerHolds
  rw [getU_foldl_lowered allUnits allUnits_nodup]
  simp [mem_allUnits]

end

end Sys2Proof.Machine

/-!
PROOFS. The rest of a frame's assembly, and the orders it carries (O9).
-/
namespace Sys2Proof.Machine

-- One proof after another, as in the tests: side by side, the proofs of one text hold more stacks than the check's memory has room for.
set_option Elab.async false

/-! ### The marks of a frame's orders (R118 to R120) -/

section
variable {n : Nat} {l : List QueuedOrder} {m m' v : Isolation} {q : QueuedOrder}

/-- The step in hand stands as it did, and no clearing put down is lost. -/
structure StepKept (m m' : Isolation) : Prop where
  step       : m'.step = m.step
  restep     : m'.restep = m.restep
  carriage   : m'.carriage = m.carriage
  samples    : m'.samples = m.samples
  litSamples : m'.litSamples = m.litSamples
  stepClears : m'.stepClears = m.stepClears
  clearings  : ∀ c ∈ m.clearings, c ∈ m'.clearings

theorem StepKept.refl (m : Isolation) : StepKept m m := ⟨rfl, rfl, rfl, rfl, rfl, rfl, fun _ h => h⟩

theorem StepKept.trans (h : StepKept m m') (k : StepKept m' v) : StepKept m v :=
  ⟨k.step.trans h.step, k.restep.trans h.restep, k.carriage.trans h.carriage, k.samples.trans h.samples,
    k.litSamples.trans h.litSamples, k.stepClears.trans h.stepClears, fun c hc => k.clearings c (h.clearings c hc)⟩

/-- The step in hand has been carried in round `n` (R119, R120). -/
structure StepDone (n : Nat) (m m' : Isolation) : Prop where
  step       : m'.step = if m.restep then .idle else .settling
  carriage   : m'.carriage = n
  samples    : m'.samples = 0
  litSamples : m'.litSamples = 0
  stepClears : m'.stepClears = []
  clears     : ∀ u ∈ m.stepClears, ∃ c ∈ m'.clearings, c.due = false ∧ c.clears.covers u = true

theorem stepDone_stepEnded (n : Nat) (m : Isolation) : StepDone n m (stepEnded n m) := by
  refine ⟨rfl, rfl, rfl, rfl, rfl, fun u hu => ?_⟩
  have hne : m.stepClears ≠ [] := List.ne_nil_of_mem hu
  have hclearings : (stepEnded n m).clearings = m.clearings ++ [⟨.units m.stepClears, false⟩] := if_neg hne
  rw [hclearings]
  exact ⟨_, List.mem_append_right _ (List.mem_singleton.mpr rfl), rfl, by simpa [ClearSet.covers] using hu⟩

theorem StepDone.kept (h : StepDone n m m') (k : StepKept m' v) : StepDone n m v := by
  refine ⟨k.step.trans h.step, k.carriage.trans h.carriage, k.samples.trans h.samples, k.litSamples.trans h.litSamples,
    k.stepClears.trans h.stepClears, fun u hu => ?_⟩
  obtain ⟨c, hc, hcov⟩ := h.clears u hu
  exact ⟨c, k.clearings c hc, hcov⟩

theorem StepDone.after (k : StepKept m m') (h : StepDone n m' v) : StepDone n m v :=
  ⟨by rw [h.step, k.restep], h.carriage, h.samples, h.litSamples, h.stepClears, fun u hu => h.clears u (by rw [k.stepClears]; exact hu)⟩

theorem closingEnded_stepKept (c : ClearSet) : StepKept m (closingEnded n c m) :=
  ⟨rfl, rfl, rfl, rfl, rfl, rfl, fun _ h => List.mem_append_left _ h⟩

/-- A step is out: its last order stands in the queue, or it has no orders (R119). -/
def StepOut (m : Isolation) : Prop := m.step = .toCarry ∨ m.step = .emptied

theorem markTold_stepEnd (hq : q.mark = .stepEnd) (h : StepOut m) : markTold n m q = stepEnded n m := by
  unfold markTold
  rw [hq]
  exact if_pos h

theorem markTold_stepKept (h : ¬StepOut m ∨ q.mark ≠ .stepEnd) : StepKept m (markTold n m q) := by
  unfold markTold
  split
  · exact .refl m
  next hq =>
    have hno : (if m.step = .toCarry ∨ m.step = .emptied then stepEnded n m else m) = m := if_neg (h.resolve_right (not_not_intro hq))
    rw [hno]
    exact .refl m
  next c hq =>
    split
    · exact .refl m
    · exact closingEnded_stepKept c

theorem StepDone.notOut (h : StepDone n m m') : ¬StepOut m' := by
  unfold StepOut
  rw [h.step]
  split <;> simp

theorem foldl_markTold_stepKept (h : ¬StepOut m ∨ ∀ q ∈ l, q.mark ≠ .stepEnd) : StepKept m (l.foldl (markTold n) m) := by
  induction l generalizing m with
  | nil => exact .refl m
  | cons q l ih =>
    have hhead : StepKept m (markTold n m q) := markTold_stepKept (h.imp_right fun hl => hl q List.mem_cons_self)
    refine hhead.trans (ih (h.imp (fun hno => ?_) fun hl r hr => hl r (List.mem_cons_of_mem q hr)))
    unfold StepOut
    rw [hhead.step]
    exact hno

theorem foldl_markTold_stepDone (h : StepOut m) (hl : ∃ q ∈ l, q.mark = .stepEnd) : StepDone n m (l.foldl (markTold n) m) := by
  induction l generalizing m with
  | nil => simp at hl
  | cons q l ih =>
    rw [List.foldl_cons]
    by_cases hq : q.mark = .stepEnd
    · have hdone := stepDone_stepEnded n m
      rw [markTold_stepEnd hq h]
      exact hdone.kept (foldl_markTold_stepKept (.inl hdone.notOut))
    · have hhead : StepKept m (markTold n m q) := markTold_stepKept (.inr hq)
      obtain ⟨r, hr, hmark⟩ := hl
      have hr : r ∈ l := (List.mem_cons.mp hr).resolve_left fun he => hq (he ▸ hmark)
      refine .after hhead (ih ?_ ⟨r, hr, hmark⟩)
      unfold StepOut
      rw [hhead.step]
      exact h

/-- The order is the last of a closing offer. -/
def endsClosing (q : QueuedOrder) : Bool :=
  match q.mark with
  | .closingEnd _ => true
  | _ => false

/-- How many closing offers end among the orders. -/
def closingsIn (l : List QueuedOrder) : Nat := (l.filter endsClosing).length

theorem endsClosing_of_mark {c : ClearSet} (hq : q.mark = .closingEnd c) : endsClosing q = true := by
  unfold endsClosing
  rw [hq]

theorem endsClosing_iff : endsClosing q = true ↔ ∃ c, q.mark = .closingEnd c := by
  unfold endsClosing
  cases q.mark <;> simp

theorem closingsIn_cons_pos (h : endsClosing q = true) : closingsIn (q :: l) = closingsIn l + 1 := by
  simp [closingsIn, h]

theorem closingsIn_cons_neg (h : ¬endsClosing q = true) : closingsIn (q :: l) = closingsIn l := by
  simp [closingsIn, h]

theorem markTold_closing {c : ClearSet} (hq : q.mark = .closingEnd c) :
    markTold n m q = if m.closingOut = 0 then m else closingEnded n c m := by
  unfold markTold
  rw [hq]

/-- Other marks leave the closing offers. -/
theorem markTold_other (h : ¬endsClosing q = true) : (markTold n m q).closingOut = m.closingOut ∧ (markTold n m q).closing = m.closing
    ∧ (markTold n m q).countFrom = m.countFrom := by
  have hno : ∀ c, q.mark ≠ .closingEnd c := fun c hq => h (endsClosing_of_mark hq)
  unfold markTold
  split
  · exact ⟨rfl, rfl, rfl⟩
  · split <;> exact ⟨rfl, rfl, rfl⟩
  next c hq => exact absurd hq (hno c)

theorem markTold_clearings {c : Clearing} (hc : c ∈ m.clearings) : c ∈ (markTold n m q).clearings := by
  unfold markTold
  split
  · exact hc
  · split
    · show c ∈ if m.stepClears = [] then m.clearings else m.clearings ++ _
      split
      · exact hc
      · exact List.mem_append_left _ hc
    · exact hc
  · split
    · exact hc
    · exact List.mem_append_left _ hc

theorem foldl_markTold_clearings {c : Clearing} (hc : c ∈ m.clearings) : c ∈ (l.foldl (markTold n) m).clearings := by
  induction l generalizing m with
  | nil => exact hc
  | cons q l ih => exact ih (markTold_clearings hc)

/-- The closing offers carried, and counting from when the last of them is (R118, R119). -/
theorem foldl_markTold_closings : (l.foldl (markTold n) m).closingOut = m.closingOut - closingsIn l
    ∧ (l.foldl (markTold n) m).closing = m.closing
    ∧ (l.foldl (markTold n) m).countFrom
      = if 1 ≤ m.closingOut ∧ m.closingOut ≤ closingsIn l ∧ m.closing = [] then .fromRound (wrap16 n) else m.countFrom := by
  induction l generalizing m with
  | nil =>
    refine ⟨rfl, rfl, (if_neg ?_).symm⟩
    show ¬(1 ≤ m.closingOut ∧ m.closingOut ≤ 0 ∧ _)
    omega
  | cons q l ih =>
    rw [List.foldl_cons]
    obtain ⟨hout, hclosing, hcount⟩ := ih (m := markTold n m q)
    rw [hout, hclosing, hcount]
    by_cases hq : endsClosing q = true
    · obtain ⟨c, hc⟩ := endsClosing_iff.mp hq
      rw [closingsIn_cons_pos hq, markTold_closing hc]
      by_cases hzero : m.closingOut = 0
      · rw [if_pos hzero, hzero]
        simp
      · rw [if_neg hzero]
        have hless : (closingEnded n c m).closingOut = m.closingOut - 1 := rfl
        have hsame : (closingEnded n c m).closing = m.closing := rfl
        have hfrom : (closingEnded n c m).countFrom = if m.closingOut = 1 ∧ m.closing = [] then .fromRound (wrap16 n) else m.countFrom := rfl
        rw [hless, hsame, hfrom]
        refine ⟨by omega, rfl, ?_⟩
        by_cases hnone : m.closing = []
        · simp only [hnone, and_true]
          by_cases hone : m.closingOut = 1
          · rw [if_pos hone, ite_self, if_pos (by omega)]
          · have hiff : (1 ≤ m.closingOut - 1 ∧ m.closingOut - 1 ≤ closingsIn l) ↔ (1 ≤ m.closingOut ∧ m.closingOut ≤ closingsIn l + 1) := by
              omega
            rw [if_neg hone]
            simp only [hiff]
        · simp [hnone]
    · obtain ⟨hout', hclosing', hcount'⟩ := markTold_other (n := n) (m := m) hq
      rw [closingsIn_cons_neg hq, hout', hclosing', hcount']
      exact ⟨rfl, rfl, rfl⟩

theorem foldl_markTold_putDown (hle : closingsIn l ≤ m.closingOut) {c : ClearSet} (hq : q ∈ l) (hc : q.mark = .closingEnd c) :
    ⟨c, false⟩ ∈ (l.foldl (markTold n) m).clearings := by
  induction l generalizing m with
  | nil => cases hq
  | cons r l ih =>
    rw [List.foldl_cons]
    rcases List.mem_cons.mp hq with rfl | hq
    · rw [closingsIn_cons_pos (endsClosing_of_mark hc)] at hle
      refine foldl_markTold_clearings ?_
      rw [markTold_closing hc, if_neg (by omega)]
      exact List.mem_append_right _ (List.mem_singleton.mpr rfl)
    · refine ih ?_ hq
      by_cases hr : endsClosing r = true
      · obtain ⟨d, hd⟩ := endsClosing_iff.mp hr
        rw [closingsIn_cons_pos hr] at hle
        rw [markTold_closing hd, if_neg (by omega)]
        show closingsIn l ≤ m.closingOut - 1
        omega
      · rw [closingsIn_cons_neg hr] at hle
        rw [(markTold_other hr).1]
        exact hle

theorem emptyStepEnded_closings (n : Nat) (m : Isolation) : (emptyStepEnded n m).closingOut = m.closingOut
    ∧ (emptyStepEnded n m).closing = m.closing ∧ (emptyStepEnded n m).countFrom = m.countFrom
    ∧ ∀ c ∈ m.clearings, c ∈ (emptyStepEnded n m).clearings := by
  unfold emptyStepEnded
  split
  · refine ⟨rfl, rfl, rfl, fun c hc => ?_⟩
    show c ∈ if m.stepClears = [] then m.clearings else m.clearings ++ _
    split
    · exact hc
    · exact List.mem_append_left _ hc
  · exact ⟨rfl, rfl, rfl, fun c hc => hc⟩

theorem emptyStepEnded_kept (h : m.step ≠ .emptied) : emptyStepEnded n m = m := if_neg h

/-- The orders of a frame carry the step in hand. -/
theorem carried_stepDone (h : m.step = .emptied ∨ (m.step = .toCarry ∧ ∃ q ∈ l, q.mark = .stepEnd)) :
    StepDone n m (emptyStepEnded n (l.foldl (markTold n) m)) := by
  by_cases hl : ∃ q ∈ l, q.mark = .stepEnd
  · have hdone : StepDone n m (l.foldl (markTold n) m) := foldl_markTold_stepDone (h.symm.imp_left And.left) hl
    rw [emptyStepEnded_kept fun he => hdone.notOut (.inr he)]
    exact hdone
  · have hempty : m.step = .emptied := h.resolve_right fun he => hl he.2
    have hkept : StepKept m (l.foldl (markTold n) m) := foldl_markTold_stepKept (.inr fun q hq hm => hl ⟨q, hq, hm⟩)
    have hstep : emptyStepEnded n (l.foldl (markTold n) m) = stepEnded n (l.foldl (markTold n) m) := if_pos (hkept.step.trans hempty)
    rw [hstep]
    exact .after hkept (stepDone_stepEnded n _)

/-- The orders of a frame leave the step in hand. -/
theorem carried_stepKept (he : m.step ≠ .emptied) (h : m.step ≠ .toCarry ∨ ∀ q ∈ l, q.mark ≠ .stepEnd) :
    StepKept m (emptyStepEnded n (l.foldl (markTold n) m)) := by
  have hkept : StepKept m (l.foldl (markTold n) m) := foldl_markTold_stepKept (h.imp_left fun hno ho => ho.elim hno he)
  rw [emptyStepEnded_kept (by rw [hkept.step]; exact he)]
  exact hkept

end

/-! ### The plan's own writes (R68) -/

/-- What a plan writes into a record: its profile, credit, outstanding and poll countdown. -/
def PlanRecord (r r' : UnitRecord) : Prop :=
  ∃ p st c o q, r' = { r with profile := p, staged := st, credit := c, outstanding := o, poll := q }

theorem PlanRecord.refl (r : UnitRecord) : PlanRecord r r := ⟨_, _, _, _, _, rfl⟩

theorem PlanRecord.trans {r r' r'' : UnitRecord} (h : PlanRecord r r') (k : PlanRecord r' r'') : PlanRecord r r'' := by
  obtain ⟨p, st, c, o, q, rfl⟩ := h
  obtain ⟨p', st', c', o', q', rfl⟩ := k
  exact ⟨p', st', c', o', q', rfl⟩

/-- Writes of a table, one entry at a time, each of which a plan may make. -/
theorem foldl_planRecord {α : Type} (g : Vector UnitRecord 64 → α → Vector UnitRecord 64)
    (hg : ∀ v a i, PlanRecord (v.get i) ((g v a).get i)) (l : List α) (v : Vector UnitRecord 64) (i : UnitNo) :
    PlanRecord (v.get i) ((l.foldl g v).get i) := by
  induction l generalizing v with
  | nil => exact .refl _
  | cons a l ih => exact (hg v a i).trans (ih _)

theorem set_planRecord {v : Vector UnitRecord 64} {u : UnitNo} {r : UnitRecord} (h : PlanRecord (v.get u) r) (i : UnitNo) :
    PlanRecord (v.get i) ((v.set u r).get i) := by
  rw [vector_get_set]
  split
  next hui => exact hui ▸ h
  next => exact .refl _

theorem applyStaged_planRecord (r : UnitRecord) : PlanRecord r (applyStaged r) := by
  unfold applyStaged
  split
  · exact .refl r
  · exact ⟨_, _, _, _, _, rfl⟩

theorem addCredit_planRecord (r : UnitRecord) : PlanRecord r (addCredit r) := by
  unfold addCredit
  split
  · exact ⟨_, _, _, _, _, rfl⟩
  · exact .refl r

theorem lowerPoll_planRecord (r : UnitRecord) : PlanRecord r (lowerPoll r) := by
  unfold lowerPoll
  split
  · exact ⟨_, _, _, _, _, rfl⟩
  · exact .refl r

theorem grantRecordTo_planRecord (h : Share) (r : UnitRecord) : PlanRecord r (grantRecordTo h r) := by
  unfold grantRecordTo
  split
  · exact ⟨_, _, _, _, _, rfl⟩
  · exact .refl r

theorem serveUnits_planRecord (g0 f : Nat) (p : UnitNo) (ut : Vector UnitRecord 64) (i : UnitNo) :
    PlanRecord (ut.get i) ((serveUnits g0 f p ut).1.get i) := by
  unfold serveUnits
  simp only
  refine PlanRecord.trans ?_ (foldl_planRecord _ (fun v u => set_planRecord ⟨_, _, _, _, _, rfl⟩) _ _ i)
  refine PlanRecord.trans ?_ (foldl_planRecord _ (fun v h => set_planRecord (grantRecordTo_planRecord _ _)) _ _ i)
  rw [vmap_get]
  exact (addCredit_planRecord _).trans (lowerPoll_planRecord _)

section
variable {u : UnitNo} {n : Nat} {carried : List PuOrder} {s : State}

/-- The records after the plan, before the marks of the ranged ones, with the unit grants. -/
def plannedUnits (carried : List PuOrder) (s : State) : Vector UnitRecord 64 × List GrantRecord :=
  if s.sc.phase = .serving then
    serveUnits (layoutOrigin s.sc.reach (discoveryDue s) (rangingPick carried s)) s.dv.factor s.gs.servicePtr (vmap applyStaged s.ut)
  else (vmap applyStaged s.ut, [])

/-- The grants of the plan. -/
def plannedGrants (carried : List PuOrder) (s : State) : List GrantRecord :=
  layDiscovery s.sc.reach (discoveryDue s)
    ++ layRanging (rangingPick carried s) (if discoveryDue s then span s.sc.reach + 76 else 0) ++ (plannedUnits carried s).2

theorem markRanged_frame (l : List UnitNo) (s : State) :
    markRanged l s = { s with ec := { s.ec with units := (markRanged l s).ec.units } } := by
  unfold markRanged
  induction l generalizing s with
  | nil => rfl
  | cons u l ih =>
    rw [List.foldl_cons, ih]
    rfl

theorem getE_markRanged (l : List UnitNo) (s : State) :
    getE u (markRanged l s) = if u ∈ l then { getE u s with attemptPending := true } else getE u s := by
  unfold markRanged
  induction l generalizing s with
  | nil => rfl
  | cons v l ih =>
    rw [List.foldl_cons, ih, getE_modE]
    by_cases h : v = u
    · subst h
      simp
    · rw [if_neg h]
      simp [Ne.symm h]

/-- What a plan writes: the records, the EC's marks and count, and the plan itself. -/
theorem planRound_writes (n : Nat) (carried : List PuOrder) (s : State) : ∃ units,
    planRound n carried s = { s with
      ut := (plannedUnits carried s).1
      ec := { s.ec with units := units, sinceDiscovery := countDiscovery (discoveryDue s) s.ec.sinceDiscovery }
      gs := countPlan (plannedGrants carried s)
        { s.gs with plans := s.gs.plans.drop (s.gs.plans.length - 1) ++ [⟨n, plannedGrants carried s, 0⟩] } }
      ∧ ∀ u, units.get u = if u ∈ rangingPick carried s then { getE u s with attemptPending := true } else getE u s := by
  let w := { s with
    ut := (plannedUnits carried s).1
    ec := { s.ec with sinceDiscovery := countDiscovery (discoveryDue s) s.ec.sinceDiscovery } }
  have hplan : planRound n carried s = { markRanged (rangingPick carried s) w with
      gs := countPlan (plannedGrants carried s) { (markRanged (rangingPick carried s) w).gs with
        plans := (markRanged (rangingPick carried s) w).gs.plans.drop ((markRanged (rangingPick carried s) w).gs.plans.length - 1)
          ++ [⟨n, plannedGrants carried s, 0⟩] } } := rfl
  refine ⟨(markRanged (rangingPick carried s) w).ec.units, ?_, fun u => getE_markRanged (rangingPick carried s) w⟩
  rw [hplan, markRanged_frame]

theorem getU_planRound : getU u (planRound n carried s) = (plannedUnits carried s).1.get u := by
  obtain ⟨units, h, -⟩ := planRound_writes n carried s
  rw [h]
  rfl

theorem planRound_planRecord (u : UnitNo) (n : Nat) (carried : List PuOrder) (s : State) :
    PlanRecord (getU u s) (getU u (planRound n carried s)) := by
  have hstaged : PlanRecord (getU u s) ((vmap applyStaged s.ut).get u) := by
    rw [vmap_get]
    exact applyStaged_planRecord _
  rw [getU_planRound]
  unfold plannedUnits
  split
  · exact hstaged.trans (serveUnits_planRecord _ _ _ _ u)
  · exact hstaged

theorem getE_planRound : getE u (planRound n carried s)
    = if u ∈ rangingPick carried s then { getE u s with attemptPending := true } else getE u s := by
  obtain ⟨units, h, hunits⟩ := planRound_writes n carried s
  rw [h]
  exact hunits u

theorem latestPlan_planRound : latestPlan (planRound n carried s) = some ⟨n, plannedGrants carried s, 0⟩ := by
  obtain ⟨units, h, -⟩ := planRound_writes n carried s
  rw [h]
  exact List.getLast?_concat

end

/-! ### The frame (R1, R5, R21) -/

/-- The framer changes the stream with its hold-off and its count, the live sets, and reports. -/
structure FramerKeeps (s t : State) : Prop where
  sc  : t.sc = { s.sc with presence := t.sc.presence }
  tli : t.tli = { s.tli with stream := t.tli.stream, holdOff := t.tli.holdOff, undeliverable := t.tli.undeliverable }
  ut  : t.ut = s.ut
  ec  : t.ec = { s.ec with lostClaims := t.ec.lostClaims }
  gs  : t.gs = s.gs
  lm  : t.lm = s.lm
  dv  : t.dv = { s.dv with lostBars := t.dv.lostBars }
  pus : t.pus = s.pus

section
variable {s t v : State}

theorem FramerKeeps.trans (h : FramerKeeps s t) (k : FramerKeeps t v) : FramerKeeps s v where
  sc := by rw [k.sc, h.sc]
  tli := by rw [k.tli, h.tli]
  ut := k.ut.trans h.ut
  ec := by rw [k.ec, h.ec]
  gs := k.gs.trans h.gs
  lm := k.lm.trans h.lm
  dv := by rw [k.dv, h.dv]
  pus := k.pus.trans h.pus

theorem OnlyReports.framerKeeps (h : OnlyReports s t) : FramerKeeps s t :=
  ⟨h.sc, by rw [h.tli], h.ut, h.ec, h.gs, h.lm, h.dv, h.pus⟩

theorem countPlaced_framerKeeps (p : Packet) (s : State) : FramerKeeps s (countPlaced p s) := by
  obtain ⟨a, h⟩ := countPlaced_frame p s
  have k : FramerKeeps { s with ucb := { s.ucb with accounts := a } } (countPlaced p s) := h.framerKeeps
  exact ⟨k.sc, k.tli, k.ut, k.ec, k.gs, k.lm, k.dv, k.pus⟩

theorem framePackets_keeps (room : Nat) (l : List Packet) (s : State) : FramerKeeps s (framePackets room l s).2 := by
  induction l generalizing room s with
  | nil => exact ⟨rfl, rfl, rfl, rfl, rfl, rfl, rfl, rfl⟩
  | cons p rest ih =>
    cases hp : deliverable s p with
    | false =>
      rw [framePackets_discards hp]
      have hcount : FramerKeeps s (countDiscard s) := ⟨rfl, rfl, rfl, rfl, rfl, rfl, rfl, rfl⟩
      exact hcount.trans (ih room (countDiscard s))
    | true =>
      by_cases hfit : p.data.length + 3 ≤ room
      · rw [framePackets_places hp hfit]
        exact (countPlaced_framerKeeps p s).trans (ih _ _)
      · rw [framePackets_stops hp hfit]
        exact ⟨rfl, rfl, rfl, rfl, rfl, rfl, rfl, rfl⟩

/-- The frame that goes out in round `n`. -/
def frameOf (n : Nat) (mark : Bool) (orders : List PuOrder) (s : State) : Frame :=
  { round := n, mark := mark, entries := planEntries s, orders := orders
    packets := (framePackets (packetArea (planEntries s) orders) s.tli.stream s).1 }

/-- What is left when the frame `f` has gone out. -/
structure FrameSent (f : Frame) (missed : List Serial) (s t : State) : Prop where
  sc        : t.sc = { s.sc with presence := t.sc.presence }
  lastFrame : t.tli.lastFrame = some f
  nextRound : t.tli.nextRound = wrap16 f.round
  queue     : t.tli.queue = s.tli.queue
  ut        : t.ut = s.ut
  ec        : t.ec = { s.ec with lostClaims := t.ec.lostClaims }
  gs        : t.gs = s.gs
  lm        : t.lm = s.lm
  dv        : t.dv = { s.dv with lostBars := t.dv.lostBars }
  pus       : t.pus = puReceive f missed s.pus

theorem finishFrame_sent (n : Nat) (mark : Bool) (orders : List PuOrder) (missed : List Serial) (s : State) :
    FrameSent (frameOf n mark orders s) missed s (finishFrame n mark orders missed s) := by
  have k := framePackets_keeps (packetArea (planEntries s) orders) s.tli.stream s
  have hqueue : (framePackets (packetArea (planEntries s) orders) s.tli.stream s).2.tli.queue = s.tli.queue := by rw [k.tli]
  have hpus : puReceive (frameOf n mark orders s) missed (framePackets (packetArea (planEntries s) orders) s.tli.stream s).2.pus
      = puReceive (frameOf n mark orders s) missed s.pus := by rw [k.pus]
  exact ⟨k.sc, rfl, rfl, hqueue, k.ut, k.ec, k.gs, k.lm, k.dv, hpus⟩

theorem FrameSent.getU {f : Frame} {missed : List Serial} (h : FrameSent f missed s t) (u : UnitNo) : getU u t = Machine.getU u s :=
  getU_congr h.ut u

theorem FrameSent.getE {f : Frame} {missed : List Serial} (h : FrameSent f missed s t) (u : UnitNo) : getE u t = Machine.getE u s := by
  unfold Machine.getE
  rw [h.ec]

end

end Sys2Proof.Machine

/-!
PROOFS. The orders a frame carries (O9).
-/
namespace Sys2Proof.Machine

-- One proof after another, as in the tests: side by side, the proofs of one text hold more stacks than the check's memory has room for.
set_option Elab.async false

/-- At this frame the queued orders of groups 2 and 3 go (R13). -/
def Purging (s : State) : Prop := s.sc.phase = .serving ∧ ∃ g, s.tli.lastFrame = some g ∧ g.mark = true

section
variable {u : UnitNo} {n : Nat} {missed : List Serial} {o : PuOrder} {s : State}

theorem purging_iff : Purging s ↔ s.sc.phase = .serving ∧ s.tli.lastFrame.any (fun f => f.mark) = true := by
  unfold Purging
  cases s.tli.lastFrame <;> simp

theorem purgeOrders_of_purging (h : Purging s) : purgeOrders s
    = (s.tli.queue.filter (fun q => isPurged q.order)).foldl (fun t q => purgedOrder q.order t)
        (s.withQueue (s.tli.queue.filter (fun q => !isPurged q.order))) :=
  (purgeOrders_eq s).trans (if_pos (purging_iff.mp h))

theorem purgeOrders_of_not_purging (h : ¬Purging s) : purgeOrders s = s := (purgeOrders_eq s).trans (if_neg (mt purging_iff.mpr h))

theorem isPurged_not : (!isPurged o) = (orderGroup o == 1) := by
  have hpos := orderGroup_pos o
  unfold isPurged
  by_cases h : orderGroup o = 1
  · simp [h]
  · simp [h, show 2 ≤ orderGroup o by omega]

theorem isPurged_dropUnit (u : UnitNo) : isPurged (.dropUnit u) = true := rfl

theorem purgeOrders_queue (h : Purging s) : (purgeOrders s).tli.queue = s.tli.queue.filter (fun q => orderGroup q.order == 1) := by
  rw [purgeOrders_of_purging h, foldl_records_frame (f := fun t q => purgedOrder (QueuedOrder.order q) t) (fun t q => purgedOrder_frame q.order t)]
  simp only [isPurged_not]
  rfl

theorem getU_purgeOrders (h : Purging s) : getU u (purgeOrders s)
    = if ∃ q ∈ s.tli.queue, q.order = .dropUnit u then { getU u s with dropPending := false } else getU u s := by
  rw [purgeOrders_of_purging h, getU_foldl_told (f := fun t q => purgedOrder (QueuedOrder.order q) t) (fun t q => getU_purgedOrder q.order t)]
  have hiff : (∃ q ∈ s.tli.queue.filter (fun q => isPurged q.order), q.order = .dropUnit u) ↔ ∃ q ∈ s.tli.queue, q.order = .dropUnit u := by
    refine exists_congr fun q => ?_
    rw [List.mem_filter, and_assoc]
    exact and_congr_right fun _ => and_iff_right_of_imp fun hq => hq ▸ isPurged_dropUnit u
  simp only [hiff]
  rfl

/-- The state in which the plan of round `s.tli.nextRound` is made. -/
def ordersCarried (s : State) : State := lowerHolds (carryOrders s.tli.nextRound (purgeOrders s))

/-- The orders of the frame. -/
def frameOrdersOf (s : State) : List PuOrder := (frameOrders (purgeOrders s)).map (·.order)

/-- The state with the plan of the round made. -/
def planMade (s : State) : State := planRound s.tli.nextRound (frameOrdersOf s) (ordersCarried s)

/-- The frame of the round. -/
def frameMade (s : State) : Frame := frameOf s.tli.nextRound (restartMark s) (frameOrdersOf s) (planMade s)

theorem assembleFrame_sent (missed : List Serial) (s : State) : FrameSent (frameMade s) missed (planMade s) (assembleFrame missed s) :=
  finishFrame_sent _ _ _ _ _

theorem ordersCarried_queue : (ordersCarried s).tli.queue = (purgeOrders s).tli.queue.drop 8 := by
  rw [ordersCarried, lowerHolds_frame, carryOrders_frame]

theorem ordersCarried_iso : (ordersCarried s).lm.iso
    = emptyStepEnded s.tli.nextRound ((frameOrders (purgeOrders s)).foldl (markTold s.tli.nextRound) s.lm.iso) := by
  have hiso := carryOrders_iso s.tli.nextRound (purgeOrders s)
  rw [ordersCarried, lowerHolds_frame]
  refine hiso.trans ?_
  rw [purgeOrders_frame]

theorem planRound_frame (n : Nat) (carried : List PuOrder) (s : State) : (planRound n carried s).tli = s.tli
    ∧ (planRound n carried s).lm = s.lm ∧ (planRound n carried s).sc = s.sc ∧ (planRound n carried s).dv = s.dv
    ∧ (planRound n carried s).pus = s.pus := by
  obtain ⟨units, h, -⟩ := planRound_writes n carried s
  rw [h]
  exact ⟨rfl, rfl, rfl, rfl, rfl⟩

theorem planMade_frame (s : State) : (planMade s).tli = (ordersCarried s).tli ∧ (planMade s).lm = (ordersCarried s).lm
    ∧ (planMade s).sc = (ordersCarried s).sc ∧ (planMade s).dv = (ordersCarried s).dv ∧ (planMade s).pus = (ordersCarried s).pus :=
  planRound_frame _ _ _

theorem assembleFrame_queue : (assembleFrame missed s).tli.queue = (purgeOrders s).tli.queue.drop 8 := by
  rw [(assembleFrame_sent missed s).queue, (planMade_frame s).1, ordersCarried_queue]

theorem assembleFrame_iso : (assembleFrame missed s).lm.iso
    = emptyStepEnded s.tli.nextRound ((frameOrders (purgeOrders s)).foldl (markTold s.tli.nextRound) s.lm.iso) := by
  rw [(assembleFrame_sent missed s).lm, (planMade_frame s).2.1, ordersCarried_iso]

/-- The plan leaves the correction hold and drop pending. -/
theorem getU_assembleFrame (missed : List Serial) (s : State) (u : UnitNo) :
    PlanRecord (getU u (ordersCarried s)) (getU u (assembleFrame missed s)) := by
  rw [(assembleFrame_sent missed s).getU]
  exact planRound_planRecord u _ _ _

theorem PlanRecord.holds {r r' : UnitRecord} (h : PlanRecord r r') : r'.dropPending = r.dropPending ∧ r'.corrHold = r.corrHold := by
  obtain ⟨p, st, c, o, q, rfl⟩ := h
  exact ⟨rfl, rfl⟩

theorem lowerHolds_dropPending : (getU u (lowerHolds s)).dropPending = (getU u s).dropPending := by
  rw [getU_lowerHolds]
  split <;> rfl

theorem carryOrders_dropPending : (getU u (carryOrders n s)).dropPending
    = if ∃ q ∈ frameOrders s, q.order = .dropUnit u then false else (getU u s).dropPending := by
  rw [getU_carryOrders]
  split <;> rfl

theorem assembleFrame_dropPending : (getU u (assembleFrame missed s)).dropPending
    = if ∃ q ∈ frameOrders (purgeOrders s), q.order = .dropUnit u then false else (getU u (purgeOrders s)).dropPending := by
  rw [(getU_assembleFrame missed s u).holds.1, ordersCarried, lowerHolds_dropPending, carryOrders_dropPending]

theorem purgeOrders_corrHold : (getU u (purgeOrders s)).corrHold = (getU u s).corrHold := by
  by_cases h : Purging s
  · rw [getU_purgeOrders h]
    split <;> rfl
  · rw [purgeOrders_of_not_purging h]

theorem carryOrders_corrHold : (getU u (carryOrders n s)).corrHold = (getU u s).corrHold := by
  rw [getU_carryOrders]
  split <;> rfl

theorem assembleFrame_corrHold : (getU u (assembleFrame missed s)).corrHold
    = if ((purgeOrders s).tli.queue.drop 8).any (fun q => isEqdFor u q.order) = false then (getU u s).corrHold - 1 else (getU u s).corrHold := by
  have hqueued : eqdQueued u (carryOrders s.tli.nextRound (purgeOrders s)) = ((purgeOrders s).tli.queue.drop 8).any (fun q => isEqdFor u q.order) := by
    rw [carryOrders_frame]
    rfl
  rw [(getU_assembleFrame missed s u).holds.2, ordersCarried, getU_lowerHolds, hqueued]
  split <;> rw [carryOrders_corrHold, purgeOrders_corrHold]

theorem getE_lowerHolds : getE u (lowerHolds s) = getE u s := by
  have hec : (lowerHolds s).ec = s.ec := by rw [lowerHolds_frame]
  unfold getE
  rw [hec]

theorem lastCarriage_planRound {carried : List PuOrder} : (getE u (planRound n carried s)).lastCarriage = (getE u s).lastCarriage := by
  rw [getE_planRound]
  split <;> rfl

theorem assembleFrame_lastCarriage (h : ∃ q ∈ frameOrders (purgeOrders s), (isAssignFor u q.order || isEqdFor u q.order) = true) :
    (getE u (assembleFrame missed s)).lastCarriage = some s.tli.nextRound := by
  have hcarried : (getE u (ordersCarried s)).lastCarriage = some s.tli.nextRound := by
    rw [ordersCarried, getE_lowerHolds, getE_carryOrders, if_pos h]
  rw [(assembleFrame_sent missed s).getE, planMade, lastCarriage_planRound, hcarried]

end

/-- Settles O9: the purge, the carriage of the first eight orders, and the lowering of the correction holds, each told once, with
the marks of the orders followed through the search. -/
theorem frameTakesTheQueueHead : Obligations.FrameTakesTheQueueHead := by
  unfold Obligations.FrameTakesTheQueueHead
  intro missed s
  have hiso := assembleFrame_iso (missed := missed) (s := s)
  obtain ⟨hout, hclosing, hcount⟩ := foldl_markTold_closings (n := s.tli.nextRound) (l := frameOrders (purgeOrders s)) (m := s.lm.iso)
  obtain ⟨eout, eclosing, ecount, eclear⟩ := emptyStepEnded_closings s.tli.nextRound
    ((frameOrders (purgeOrders s)).foldl (markTold s.tli.nextRound) s.lm.iso)
  refine ⟨frameMade s, (assembleFrame_sent missed s).lastFrame, (purgeOrders s).tli.queue, fun h => ?_, purgeOrders_queue, rfl, assembleFrame_queue,
    fun u => ⟨fun h => ?_, fun hno hpurge => ?_, assembleFrame_lastCarriage, fun h => ?_, fun h => ?_⟩, fun h => ?_, fun he h => ?_,
    ?_, fun hle q hq c hc => ?_, fun hone hle hnone => ?_, fun h => ?_⟩
  · rw [purgeOrders_of_not_purging h]
  · rw [assembleFrame_dropPending]
    split
    · rfl
    next hno =>
      obtain ⟨hp, hq⟩ := h.resolve_left hno
      rw [getU_purgeOrders hp, if_pos hq]
  · rw [assembleFrame_dropPending, if_neg fun ⟨q, hq, ho⟩ => hno q hq ho]
    by_cases hp : Purging s
    · rw [getU_purgeOrders hp, if_neg (by simpa using hpurge hp)]
    · rw [purgeOrders_of_not_purging hp]
  · rw [assembleFrame_queue] at h
    rw [assembleFrame_corrHold, if_neg (by simpa using h)]
  · rw [assembleFrame_queue] at h
    rw [assembleFrame_corrHold, if_pos (by simpa using h)]
  · rw [hiso]
    have hdone := carried_stepDone (n := s.tli.nextRound) h
    exact ⟨hdone.carriage, hdone.step, hdone.samples, hdone.litSamples, hdone.stepClears, hdone.clears⟩
  · rw [hiso]
    have hkept := carried_stepKept (n := s.tli.nextRound) he h
    exact ⟨hkept.step, hkept.carriage, hkept.samples⟩
  · rw [hiso, eout]
    exact hout
  · rw [hiso]
    exact eclear _ (foldl_markTold_putDown hle hq hc)
  · rw [hiso, ecount, hcount]
    exact if_pos ⟨hone, hle, hnone⟩
  · rw [hiso, ecount, hcount]
    refine if_neg ?_
    rintro ⟨hone, hle, hnone⟩
    rcases h with h | h | h
    · omega
    · exact absurd hle (Nat.not_le.mpr h)
    · exact h hnone

end Sys2Proof.Machine

/-!
PROOFS. What the parts of a round-marker event leave unchanged, and its counts (O16).
-/
namespace Sys2Proof.Machine

-- One proof after another, as in the tests: side by side, the proofs of one text hold more stacks than the check's memory has room for.
set_option Elab.async false

/-! ### The SC's part (R191, R192) -/

/-- The SC's counts change its own items, F and reports. -/
structure ScTicked (s t : State) : Prop where
  tli    : t.tli = s.tli
  ut     : t.ut = s.ut
  ec     : t.ec = { s.ec with lostClaims := t.ec.lostClaims }
  gs     : t.gs = s.gs
  lm     : t.lm = s.lm
  claims : t.dv.claims = s.dv.claims
  pus    : t.pus = s.pus

section
variable {s t v : State} {u : UnitNo} {n : Nat} {m : Isolation} {missed : List Serial} {q : QueuedOrder}

theorem scTicked_of_sc (c : StartCtl) (s : State) : ScTicked s { s with sc := c } := ⟨rfl, rfl, rfl, rfl, rfl, rfl, rfl⟩

theorem endListen_ticked (s : State) : ScTicked s (endListen s) := by
  unfold endListen
  split <;> exact scTicked_of_sc _ s

theorem endEnlist_ticked (s : State) : ScTicked s (endEnlist s) := by
  let w := lockSettings Settings.defaults s
  have r : OnlyReports { w with sc := { w.sc with enlistCount := 0, phase := .serving } } (endEnlist s) := occur_reports _ _ _
  exact ⟨r.tli, r.ut, r.ec, r.gs, r.lm, by rw [r.dv]; rfl, r.pus⟩

theorem scTick_ticked (s : State) : ScTicked s (scTick s) := by
  unfold scTick
  split
  · exact scTicked_of_sc _ s
  · split
    · split
      · exact scTicked_of_sc s.sc s
      · split
        · exact endListen_ticked s
        · exact scTicked_of_sc _ s
    · split
      · exact endEnlist_ticked s
      · exact scTicked_of_sc _ s
    · exact scTicked_of_sc s.sc s
    · exact scTicked_of_sc s.sc s

/-! ### The counts (R28, R30) -/

theorem getU_tickCounts : getU u (tickCounts s) = tickRecord (getU u s) := vmap_get _ _ _

/-- The counts of a record, with its state. -/
structure CountsKept (r r' : UnitRecord) : Prop where
  state        : r'.state = r.state
  lostHold     : r'.lostHold = r.lostHold
  claimRefresh : r'.claimRefresh = r.claimRefresh
  claimSettle  : r'.claimSettle = r.claimSettle
  cooling      : r'.cooling = r.cooling

theorem CountsKept.refl (r : UnitRecord) : CountsKept r r := ⟨rfl, rfl, rfl, rfl, rfl⟩

theorem CountsKept.trans {r r' r'' : UnitRecord} (h : CountsKept r r') (k : CountsKept r' r'') : CountsKept r r'' :=
  ⟨k.state.trans h.state, k.lostHold.trans h.lostHold, k.claimRefresh.trans h.claimRefresh, k.claimSettle.trans h.claimSettle,
    k.cooling.trans h.cooling⟩

theorem PlanRecord.counts {r r' : UnitRecord} (h : PlanRecord r r') : CountsKept r r' := by
  obtain ⟨p, st, c, o, q, rfl⟩ := h
  exact ⟨rfl, rfl, rfl, rfl, rfl⟩

theorem purgeOrders_counts (u : UnitNo) (s : State) : CountsKept (getU u s) (getU u (purgeOrders s)) := by
  by_cases h : Purging s
  · rw [getU_purgeOrders h]
    split <;> exact ⟨rfl, rfl, rfl, rfl, rfl⟩
  · rw [purgeOrders_of_not_purging h]
    exact .refl _

theorem carryOrders_counts (u : UnitNo) (n : Nat) (s : State) : CountsKept (getU u s) (getU u (carryOrders n s)) := by
  rw [getU_carryOrders]
  split <;> exact ⟨rfl, rfl, rfl, rfl, rfl⟩

theorem lowerHolds_counts (u : UnitNo) (s : State) : CountsKept (getU u s) (getU u (lowerHolds s)) := by
  rw [getU_lowerHolds]
  split <;> exact ⟨rfl, rfl, rfl, rfl, rfl⟩

theorem assembleFrame_counts (u : UnitNo) (missed : List Serial) (s : State) :
    CountsKept (getU u s) (getU u (assembleFrame missed s)) :=
  (((purgeOrders_counts u s).trans (carryOrders_counts u s.tli.nextRound (purgeOrders s))).trans (lowerHolds_counts u _)).trans
    (getU_assembleFrame missed s u).counts

/-! ### The assembly beside the records -/

theorem markTold_phase : (markTold n m q).phase = m.phase ∧ (markTold n m q).holdoff = m.holdoff := by
  unfold markTold
  split
  · exact ⟨rfl, rfl⟩
  · split <;> exact ⟨rfl, rfl⟩
  · split <;> exact ⟨rfl, rfl⟩

theorem foldl_markTold_phase (l : List QueuedOrder) (m : Isolation) :
    (l.foldl (markTold n) m).phase = m.phase ∧ (l.foldl (markTold n) m).holdoff = m.holdoff := by
  induction l generalizing m with
  | nil => exact ⟨rfl, rfl⟩
  | cons q l ih =>
    obtain ⟨hphase, hhold⟩ := ih (markTold n m q)
    exact ⟨hphase.trans markTold_phase.1, hhold.trans markTold_phase.2⟩

theorem emptyStepEnded_phase : (emptyStepEnded n m).phase = m.phase ∧ (emptyStepEnded n m).holdoff = m.holdoff := by
  unfold emptyStepEnded
  split <;> exact ⟨rfl, rfl⟩

theorem assembleFrame_phase : (assembleFrame missed s).lm.iso.phase = s.lm.iso.phase
    ∧ (assembleFrame missed s).lm.iso.holdoff = s.lm.iso.holdoff := by
  rw [assembleFrame_iso]
  obtain ⟨hphase, hhold⟩ := foldl_markTold_phase (n := s.tli.nextRound) (frameOrders (purgeOrders s)) s.lm.iso
  exact ⟨emptyStepEnded_phase.1.trans hphase, emptyStepEnded_phase.2.trans hhold⟩

/-- What the carriage of the orders leaves beside records, the EC's marks, the search and the queue. -/
theorem ordersCarried_frame (s : State) : ∃ ut units iso queue, ordersCarried s = { s with
    ut := ut, ec := { s.ec with units := units }, lm := { s.lm with iso := iso }, tli := { s.tli with queue := queue } } := by
  unfold ordersCarried
  rw [lowerHolds_frame]
  generalize (lowerHolds (carryOrders s.tli.nextRound (purgeOrders s))).ut = lowered
  rw [carryOrders_frame]
  generalize (carryOrders s.tli.nextRound (purgeOrders s)).ec.units = units
  generalize (carryOrders s.tli.nextRound (purgeOrders s)).lm.iso = iso
  rw [purgeOrders_frame]
  exact ⟨lowered, units, iso, _, rfl⟩

/-! ### The step that waited on a carriage (R130) -/

theorem offerStep_speak_holdoff (s : State) : (offerStep .speak s).lm.iso.holdoff = s.lm.iso.holdoff := by
  unfold offerStep
  simp only
  split
  · rfl
  · split <;> rfl

theorem restepAfter_search (s : State) : OnlySearch s (restepAfter s) := by
  unfold restepAfter
  split
  · exact (modIso_search _ s).trans (offerStep_speak_search _)
  · exact .refl s

theorem restepAfter_phase (s : State) : (restepAfter s).lm.iso.phase = s.lm.iso.phase ∧ (restepAfter s).lm.iso.holdoff = s.lm.iso.holdoff := by
  unfold restepAfter
  split
  · exact ⟨(offerStep_keeps .speak _).1, offerStep_speak_holdoff _⟩
  · exact ⟨rfl, rfl⟩

/-! ### The event as a whole (R1) -/

/-- The state in which the frame of the event is assembled: the SC's part taken and the counts run. -/
def countsRun (s : State) : State := tickCounts (scTick (flushDue s))

/-- The frame of the event has gone out. -/
def frameGone (missed : List Serial) (s : State) : State := assembleFrame missed (countsRun s)

theorem exec_roundMarker (hheld : s.held = false) (missed : List Serial) :
    exec (.roundMarker missed) s = .next (latchTests (restepAfter (frameGone missed s))) := unlessHeld_of_not_held hheld _

theorem getU_countsRun (u : UnitNo) (s : State) : getU u (countsRun s) = getU u (tickCounts (flushDue s)) := by
  unfold countsRun
  rw [getU_tickCounts, getU_tickCounts, getU_congr (scTick_ticked (flushDue s)).ut]

theorem ScTicked.counts (h : ScTicked s t) : (tickCounts t).ec.strangers = (tickCounts s).ec.strangers
    ∧ (tickCounts t).dv.claims = (tickCounts s).dv.claims ∧ (tickCounts t).lm = (tickCounts s).lm := by
  have hstrangers : t.ec.strangers = s.ec.strangers := by rw [h.ec]
  refine ⟨congrArg (List.map _) hstrangers, congrArg (List.map _) h.claims, ?_⟩
  exact congrArg (fun lm : LightMonitor => ({ lm with
    iso := tickIso lm.iso, barWait := lm.barWait.map (fun b => { b with due := true }) } : LightMonitor)) h.lm

theorem countsRun_lists (s : State) : (countsRun s).ec.strangers = (tickCounts (flushDue s)).ec.strangers
    ∧ (countsRun s).dv.claims = (tickCounts (flushDue s)).dv.claims ∧ (countsRun s).lm = (tickCounts (flushDue s)).lm :=
  (scTick_ticked (flushDue s)).counts

theorem assembleFrame_lists (missed : List Serial) (s : State) :
    (assembleFrame missed s).ec.strangers = s.ec.strangers ∧ (assembleFrame missed s).dv.claims = s.dv.claims := by
  have hsent := assembleFrame_sent missed s
  obtain ⟨ut, units, iso, queue, hcarried⟩ := ordersCarried_frame s
  obtain ⟨marks, hplan, -⟩ := planRound_writes s.tli.nextRound (frameOrdersOf s) (ordersCarried s)
  have hec : (planMade s).ec.strangers = (ordersCarried s).ec.strangers := by rw [planMade, hplan]
  constructor
  · rw [hsent.ec, hec, hcarried]
  · rw [hsent.dv, (planMade_frame s).2.2.2.1, hcarried]

/-- The countdowns of a FREE record whose number is given back by the event (R30). -/
theorem tickRecord_allocatable {r : UnitRecord} (hfree : r.state = .free) (hdrop : r.dropPending = false) (hcool : r.cooling ≤ 1) :
    allocatable (tickRecord r) = true := by
  have hnone : (tickRecord r).cooling = 0 := by
    show (if r.state = .free ∧ r.dropPending = false then r.cooling - 1 else r.cooling) = 0
    rw [if_pos ⟨hfree, hdrop⟩]
    omega
  unfold allocatable
  rw [hnone]
  simp [tickRecord, hfree, hdrop]

theorem tickRecord_cooling {r : UnitRecord} (hfree : r.state = .free) :
    (tickRecord r).cooling = if r.dropPending then r.cooling else r.cooling - 1 := by
  show (if r.state = .free ∧ r.dropPending = false then r.cooling - 1 else r.cooling) = _
  cases hdrop : r.dropPending <;> simp [hfree]

theorem tailSpanStep_of_over (hspan : 64 ≤ (getU u s).tailSpan) (hevents : (getU u s).tailEvents < 4) :
    tailSpanStep u s = setU u { getU u s with tailEvents := 0, tailSpan := 0 } s := by
  have hover : tailSpanOver (getU u s) = true := by simp [tailSpanOver, hspan, hevents]
  exact if_pos hover

/-- The members of a list that are not taken out. -/
theorem mem_filter_not {α : Type} {p : α → Bool} {l : List α} {a : α} {q : Prop} (h : p a = true ↔ q) :
    a ∈ l.filter (fun x => !p x) ↔ a ∈ l ∧ ¬q := by
  rw [List.mem_filter, ← h]
  simp

theorem claimGoes_iff {x : Serial} {k : TreeStation} {e : ClaimEntry} : (hasKey x k e && claimExpired e) = true
    ↔ e.serial = x ∧ e.peer = k ∧ (e.kind = .claiming ∧ 400 ≤ e.age ∨ e.kind = .held ∧ 16000 ≤ e.age) := by
  unfold hasKey claimExpired
  rw [Bool.and_eq_true, Bool.and_eq_true, decide_eq_true_eq, beq_iff_eq, beq_iff_eq, and_assoc]
  cases hkind : e.kind <;> simp [claimLife]

/-- What the end of the event leaves. -/
structure EventEnded (s t : State) : Prop where
  strangers : t.ec.strangers = s.ec.strangers
  claims    : t.dv.claims = s.dv.claims
  phase     : t.lm.iso.phase = s.lm.iso.phase
  holdoff   : t.lm.iso.holdoff = s.lm.iso.holdoff
  counts    : ∀ u, CountsKept (getU u s) (getU u t)

theorem EventEnded.trans (h : EventEnded s t) (k : EventEnded t v) : EventEnded s v :=
  ⟨k.strangers.trans h.strangers, k.claims.trans h.claims, k.phase.trans h.phase, k.holdoff.trans h.holdoff,
    fun u => (h.counts u).trans (k.counts u)⟩

theorem countsRun_ended (s : State) : EventEnded (tickCounts (flushDue s)) (countsRun s) := by
  obtain ⟨hstrangers, hclaims, hlm⟩ := countsRun_lists s
  exact ⟨hstrangers, hclaims, by rw [hlm], by rw [hlm], fun u => by rw [getU_countsRun]; exact .refl _⟩

theorem assembleFrame_ended (missed : List Serial) (s : State) : EventEnded s (assembleFrame missed s) :=
  ⟨(assembleFrame_lists missed s).1, (assembleFrame_lists missed s).2, assembleFrame_phase.1, assembleFrame_phase.2,
    fun u => assembleFrame_counts u missed s⟩

theorem restepAfter_ended (s : State) : EventEnded s (restepAfter s) := by
  have h := restepAfter_search s
  exact ⟨by rw [h.ec], by rw [h.dv], (restepAfter_phase s).1, (restepAfter_phase s).2, fun u => by rw [getU_congr h.ut u]; exact .refl _⟩

theorem latchTests_ended (s : State) : EventEnded s (latchTests s) := ⟨rfl, rfl, rfl, rfl, fun _ => .refl _⟩

theorem event_ended (missed : List Serial) (s : State) :
    EventEnded (tickCounts (flushDue s)) (latchTests (restepAfter (frameGone missed s))) :=
  (countsRun_ended s).trans (((assembleFrame_ended missed (countsRun s)).trans (restepAfter_ended _)).trans (latchTests_ended _))

end

/-- Settles O16: the counts by the equation of each, the event through what each of its parts leaves, the expiries by their filters. -/
theorem countsRunAndExpire : Obligations.CountsRunAndExpire := by
  unfold Obligations.CountsRunAndExpire
  refine ⟨fun s => ⟨rfl, rfl, fun hphase => if_pos hphase, fun u => ?_⟩, fun missed s hheld => ?_, fun u s hheld => ?_,
    fun x s hheld => ?_, fun x k s hheld => ?_, fun u s hheld => ⟨fun hspan hevents => ?_, fun hspan => ?_⟩⟩
  · rw [getU_tickCounts]
    exact ⟨rfl, fun h => if_pos h, fun h => if_pos h, fun h => if_neg (by simp [h]), fun hstate hstart => if_pos ⟨hstate, hstart⟩,
      tickRecord_cooling, tickRecord_allocatable⟩
  · have h := event_ended missed s
    exact ⟨_, exec_roundMarker hheld missed, h.claims, h.strangers, h.phase, h.holdoff, fun u =>
      ⟨(h.counts u).state, (h.counts u).lostHold, (h.counts u).claimRefresh, (h.counts u).claimSettle, (h.counts u).cooling⟩⟩
  · exact unlessHeld_of_not_held hheld _
  · exact ⟨_, unlessHeld_of_not_held hheld _, rfl, List.filter_sublist,
      fun e => mem_filter_not (p := fun e : Stranger => e.serial == x && decide (240000 ≤ e.age)) (by simp)⟩
  · exact ⟨_, unlessHeld_of_not_held hheld _, rfl, List.filter_sublist,
      fun e => mem_filter_not (p := fun e => hasKey x k e && claimExpired e) claimGoes_iff⟩
  · exact (unlessHeld_of_not_held hheld _).trans (congrArg _ (tailSpanStep_of_over hspan hevents))
  · exact (unlessHeld_of_not_held hheld _).trans (congrArg _ (tailSpanStep_of_open hspan))

end Sys2Proof.Machine

/-!
PROOFS. The layout of a plan (O5).
-/
namespace Sys2Proof.Machine

-- One proof after another, as in the tests: side by side, the proofs of one text hold more stacks than the check's memory has room for.
set_option Elab.async false

/-! ### Grants laid one after another (R71, R86) -/

/-- The grants stand in order and apart from each other, from grain `a` on and before grain `b`. -/
inductive Laid : Nat → List GrantRecord → Nat → Prop
  | nil {a b : Nat} (h : a ≤ b) : Laid a [] b
  | cons {a b : Nat} {g : GrantRecord} {l : List GrantRecord} (hfrom : a ≤ grantFrom g) (hto : grantFrom g < grantTo g)
      (h : Laid (grantTo g) l b) : Laid a (g :: l) b

section
variable {a b c : Nat} {g : GrantRecord} {l l' : List GrantRecord}

theorem Laid.le (h : Laid a l b) : a ≤ b := by
  induction h with
  | nil h => exact h
  | cons hfrom hto h ih => exact hfrom.trans (hto.le.trans ih)

theorem Laid.earlier {d : Nat} (h : Laid a l b) (hle : d ≤ a) : Laid d l b := by
  cases h with
  | nil h => exact .nil (hle.trans h)
  | cons hfrom hto h => exact .cons (hle.trans hfrom) hto h

theorem Laid.append (h : Laid a l b) (k : Laid b l' c) : Laid a (l ++ l') c := by
  induction h with
  | nil h => exact k.earlier h
  | cons hfrom hto h ih => exact .cons hfrom hto (ih k)

theorem Laid.mono (h : Laid a l b) (hle : b ≤ c) : Laid a l c := by simpa using h.append (.nil hle)

theorem Laid.within (h : Laid a l b) (hg : g ∈ l) : a ≤ grantFrom g ∧ grantFrom g < grantTo g ∧ grantTo g ≤ b := by
  induction h with
  | nil h => cases hg
  | cons hfrom hto h ih =>
    rcases List.mem_cons.mp hg with rfl | hg
    · exact ⟨hfrom, hto, h.le⟩
    · obtain ⟨hfrom', hto', hend⟩ := ih hg
      exact ⟨hfrom.trans (hto.le.trans hfrom'), hto', hend⟩

theorem Laid.pairwise (h : Laid a l b) : l.Pairwise (fun g h => grantTo g ≤ grantFrom h) := by
  induction h with
  | nil h => exact .nil
  | cons hfrom hto h ih => exact .cons (fun g' hg' => (h.within hg').1) ih

/-- A grant of `n` grains for a unit keeps just those. -/
theorem grant_between {kind : GrantKind} (hk : kind = .data ∨ kind = .reportOnly) (unit start n pc pe : Nat) (busy : Bool) :
    grantFrom (newGrant unit kind start n pc pe busy) = start ∧ grantTo (newGrant unit kind start n pc pe busy) = start + n := by
  rcases hk with rfl | rfl <;> exact ⟨rfl, rfl⟩

end

/-! ### The windows (R71, R72) -/

/-- The grains of the discovery window. -/
def discoverySpan (c : ReachClass) (due : Bool) : Nat := if due then span c + 76 else 0

theorem layDiscovery_laid (c : ReachClass) (due : Bool) : Laid 0 (layDiscovery c due) (discoverySpan c due) := by
  cases due with
  | false => exact .nil (Nat.le_refl 0)
  | true => exact .cons (Nat.le_refl 0) (Nat.lt_of_lt_of_le (by decide : 0 < 76) (Nat.le_add_left 76 (span c))) (.nil (Nat.le_refl (span c + 76)))

theorem layRanging_laid (l : List UnitNo) (w : Nat) : Laid w (layRanging l w) (w + 28 * l.length) := by
  induction l generalizing w with
  | nil => exact .nil (Nat.le_refl w)
  | cons u l ih =>
    have hfrom : grantFrom (newGrant u.val .ranging (w + 8) 12 0 0 false) = w := Nat.add_sub_cancel w 8
    have hto : grantTo (newGrant u.val .ranging (w + 8) 12 0 0 false) = w + 28 := rfl
    refine .cons hfrom.ge (by omega) ?_
    have hlen : w + 28 * (u :: l).length = w + 28 + 28 * l.length := by
      rw [List.length_cons]
      omega
    rw [hto, hlen]
    exact ih (w + 28)

/-! ### The committed pass (R79, R80) -/

section
variable {u : UnitNo} {r : UnitRecord} {rem e w f : Nat} {h : Share} {shares : List Share}

/-- What a share costs. -/
def shareCost (h : Share) : Nat := if h.granted then 10 + h.pc + h.pe else 0

/-- What the shares cost together. -/
def totalCost (l : List Share) : Nat := (l.map shareCost).sum

/-- The share of one record in the committed pass, with `rem` grains left. -/
def committedShare (u : UnitNo) (r : UnitRecord) (rem : Nat) : Share :=
  ⟨u, r, decide (1 ≤ committedPayload r rem ∨ (r.poll = 0 ∧ 10 ≤ rem)), committedPayload r rem, 0⟩

theorem committedPayload_fits (h : 1 ≤ committedPayload r rem) : committedPayload r rem + 10 ≤ rem := by
  unfold committedPayload at h ⊢
  simp only at h ⊢
  split_ifs at h ⊢ <;> omega

theorem shareCost_committedShare : shareCost (committedShare u r rem)
    = if 1 ≤ committedPayload r rem then committedPayload r rem + 10 else if r.poll = 0 ∧ 10 ≤ rem then 10 else 0 := by
  unfold shareCost committedShare
  by_cases hc : 1 ≤ committedPayload r rem
  · simp only [hc, true_or, decide_true, if_true]
    omega
  · have hzero : committedPayload r rem = 0 := by omega
    simp [hzero]

theorem committedPass_cons (rest : List (UnitNo × UnitRecord)) : committedPass ((u, r) :: rest) rem
    = (committedShare u r rem :: (committedPass rest (rem - shareCost (committedShare u r rem))).1,
      (committedPass rest (rem - shareCost (committedShare u r rem))).2) := by
  rw [shareCost_committedShare]
  rw [committedPass]
  simp only
  by_cases hc : 1 ≤ committedPayload r rem
  · have hshare : committedShare u r rem = ⟨u, r, true, committedPayload r rem, 0⟩ := by simp [committedShare, hc]
    rw [if_pos hc, if_pos hc, hshare]
  · have hzero : committedPayload r rem = 0 := by omega
    rw [if_neg hc, if_neg hc]
    by_cases hp : r.poll = 0 ∧ 10 ≤ rem
    · have hshare : committedShare u r rem = ⟨u, r, true, 0, 0⟩ := by simp [committedShare, hzero, hp]
      rw [if_pos hp, if_pos hp, hshare]
    · have hshare : committedShare u r rem = ⟨u, r, false, 0, 0⟩ := by
        unfold committedShare
        rw [hzero]
        simpa using hp
      rw [if_neg hp, if_neg hp, hshare]
      rfl

theorem committedShare_fits : shareCost (committedShare u r rem) ≤ rem := by
  rw [shareCost_committedShare]
  split_ifs with hc hp
  · exact committedPayload_fits hc
  · exact hp.2
  · exact Nat.zero_le _

theorem committedPass_total (l : List (UnitNo × UnitRecord)) (rem : Nat) :
    totalCost (committedPass l rem).1 + (committedPass l rem).2 = rem := by
  induction l generalizing rem with
  | nil => exact Nat.zero_add rem
  | cons x l ih =>
    obtain ⟨u, r⟩ := x
    have hfits : shareCost (committedShare u r rem) ≤ rem := committedShare_fits
    have hrest := ih (rem - shareCost (committedShare u r rem))
    rw [committedPass_cons]
    show shareCost (committedShare u r rem) + totalCost _ + _ = rem
    omega

/-- The share has no excess yet, and no payload without a grant. -/
def Fresh (h : Share) : Prop := h.pe = 0 ∧ (h.granted = false → h.pc = 0)

theorem committedShare_fresh : Fresh (committedShare u r rem) := by
  refine ⟨rfl, fun hno => ?_⟩
  obtain ⟨hnone, -⟩ := not_or.mp (of_decide_eq_false hno)
  exact Nat.eq_zero_of_not_pos hnone

theorem committedPass_fresh (l : List (UnitNo × UnitRecord)) (rem : Nat) : ∀ h ∈ (committedPass l rem).1, Fresh h := by
  induction l generalizing rem with
  | nil => simp [committedPass]
  | cons x l ih =>
    obtain ⟨u, r⟩ := x
    rw [committedPass_cons]
    exact List.forall_mem_cons.mpr ⟨committedShare_fresh, ih _⟩

/-! ### The excess pass (R83) -/

/-- The share once the excess pass has come to it. -/
def excessShare (e w rem : Nat) (h : Share) : Share :=
  { h with granted := h.granted || decide (1 ≤ excessPayload e w rem h), pe := excessPayload e w rem h }

/-- What the excess of a share costs (R83). -/
def excessCost (e w rem : Nat) (h : Share) : Nat :=
  if excessPayload e w rem h = 0 then 0 else if h.granted then excessPayload e w rem h else excessPayload e w rem h + 10

theorem excessPass_cons (hpe : h.pe = 0) : excessPass e w (h :: shares) rem
    = (excessShare e w rem h :: (excessPass e w shares (rem - excessCost e w rem h)).1,
      (excessPass e w shares (rem - excessCost e w rem h)).2) := by
  rw [excessPass]
  unfold excessCost
  simp only
  by_cases hy : 1 ≤ excessPayload e w rem h
  · have hshare : excessShare e w rem h = { h with granted := true, pe := excessPayload e w rem h } := by simp [excessShare, hy]
    have hne : ¬excessPayload e w rem h = 0 := by omega
    rw [if_pos hy, hshare]
    simp only [hne, if_false]
  · have hzero : excessPayload e w rem h = 0 := by omega
    have hshare : excessShare e w rem h = h := by
      unfold excessShare
      rw [hzero, ← hpe]
      cases h
      simp_all
    rw [if_neg hy, if_pos hzero, hshare]
    rfl

theorem excessCost_fits : excessCost e w rem h ≤ rem := by
  unfold excessCost excessPayload
  simp only
  split_ifs <;> omega

theorem shareCost_excessShare (hh : Fresh h) : shareCost (excessShare e w rem h) = shareCost h + excessCost e w rem h := by
  have hpe := hh.1
  unfold shareCost excessCost excessShare
  by_cases hy : 1 ≤ excessPayload e w rem h
  · have hne : ¬excessPayload e w rem h = 0 := by omega
    cases hg : h.granted
    · simp only [hy, hne, decide_true, Bool.or_true, Bool.false_eq_true, if_true, if_false]
      have hpc : h.pc = 0 := hh.2 hg
      omega
    · simp only [hne, hpe, Bool.true_or, if_true, if_false, Nat.add_zero]
  · have hzero : excessPayload e w rem h = 0 := by omega
    simp [hzero, hpe]

theorem excessPass_total (hpe : ∀ h ∈ shares, Fresh h) :
    totalCost (excessPass e w shares rem).1 + (excessPass e w shares rem).2 = totalCost shares + rem := by
  induction shares generalizing rem with
  | nil => rfl
  | cons h l ih =>
    obtain ⟨hhead, htail⟩ := List.forall_mem_cons.mp hpe
    have hfits : excessCost e w rem h ≤ rem := excessCost_fits
    have hrest := ih htail (rem := rem - excessCost e w rem h)
    rw [excessPass_cons hhead.1]
    show shareCost (excessShare e w rem h) + totalCost _ + _ = shareCost h + totalCost l + rem
    rw [shareCost_excessShare hhead]
    omega

theorem excessStage_total (hpe : ∀ h ∈ shares, Fresh h) :
    totalCost (excessStage f shares rem).1 + (excessStage f shares rem).2 = totalCost shares + rem := by
  unfold excessStage
  simp only
  split
  · exact excessPass_total hpe
  · rfl

/-! ### The polls of LOST records (R85) -/

theorem lostPolls_cons (rest : List (UnitNo × UnitRecord)) : lostPolls ((u, r) :: rest) rem
    = if r.poll = 0 ∧ 10 ≤ rem then (u :: (lostPolls rest (rem - 10)).1, (lostPolls rest (rem - 10)).2) else lostPolls rest rem := by
  rw [lostPolls]

theorem lostPolls_total (l : List (UnitNo × UnitRecord)) (rem : Nat) : 10 * (lostPolls l rem).1.length + (lostPolls l rem).2 = rem := by
  induction l generalizing rem with
  | nil => exact Nat.zero_add rem
  | cons x l ih =>
    obtain ⟨u, r⟩ := x
    rw [lostPolls_cons]
    split
    next hp =>
      have hrest := ih (rem - 10)
      simp only [List.length_cons]
      omega
    next => exact ih rem

/-! ### The unit grants (R86) -/

theorem layShares_laid (f : Nat) (l : List Share) (g : Nat) :
    Laid g (layShares f l g).1 (layShares f l g).2 ∧ (layShares f l g).2 = g + totalCost l := by
  induction l generalizing g with
  | nil => exact ⟨.nil (Nat.le_refl g), rfl⟩
  | cons h l ih =>
    rw [layShares]
    cases hg : h.granted with
    | false =>
      obtain ⟨hlaid, hend⟩ := ih g
      have hcost : totalCost (h :: l) = totalCost l := by simp [totalCost, shareCost, hg]
      simp only [Bool.false_eq_true, if_false]
      exact ⟨hlaid, by rw [hend, hcost]⟩
    | true =>
      obtain ⟨hlaid, hend⟩ := ih (g + 10 + h.pc + h.pe)
      have hcost : totalCost (h :: l) = 10 + h.pc + h.pe + totalCost l := by simp [totalCost, shareCost, hg]
      have hkind : (if 1 ≤ h.pc + h.pe then GrantKind.data else .reportOnly) = .data
          ∨ (if 1 ≤ h.pc + h.pe then GrantKind.data else .reportOnly) = .reportOnly := by
        split
        · exact .inl rfl
        · exact .inr rfl
      obtain ⟨hfrom, hto⟩ := grant_between hkind h.unit.val g (10 + h.pc + h.pe) h.pc h.pe (decide (1 ≤ h.pe) && decide (f < 256))
      simp only [if_true]
      refine ⟨.cons hfrom.ge (by omega) ?_, by rw [hend, hcost]; omega⟩
      rw [hto, show g + (10 + h.pc + h.pe) = g + 10 + h.pc + h.pe by omega]
      exact hlaid

theorem layPolls_laid (l : List UnitNo) (g : Nat) : Laid g (layPolls l g) (g + 10 * l.length) := by
  induction l generalizing g with
  | nil => exact .nil (Nat.le_refl g)
  | cons u l ih =>
    have hlen : g + 10 * (u :: l).length = g + 10 + 10 * l.length := by
      rw [List.length_cons]
      omega
    rw [hlen]
    exact .cons (Nat.le_refl g) (Nat.lt_add_of_pos_right (Nat.succ_pos 9)) (ih (g + 10))

theorem unitGrants_laid {g0 : Nat} (hg0 : g0 ≤ 12484) (f : Nat) (p : UnitNo) (ut : Vector UnitRecord 64) :
    Laid g0 (unitGrants g0 f p ut).1 12484 := by
  unfold unitGrants
  simp only
  generalize List.filter _ ((ringFrom p).map fun u => (u, ut.get u)) = act
  generalize List.filter _ ((ringFrom p).map fun u => (u, ut.get u)) = lost
  have hcom := committedPass_total act (12484 - g0)
  have hexc := excessStage_total (f := f) (rem := (committedPass act (12484 - g0)).2) (committedPass_fresh act (12484 - g0))
  have hpol := lostPolls_total lost (excessStage f (committedPass act (12484 - g0)).1 (committedPass act (12484 - g0)).2).2
  obtain ⟨hshares, hend⟩ := layShares_laid f (excessStage f (committedPass act (12484 - g0)).1 (committedPass act (12484 - g0)).2).1 g0
  refine hshares.append ?_
  have hlaid := layPolls_laid (lostPolls lost (excessStage f (committedPass act (12484 - g0)).1 (committedPass act (12484 - g0)).2).2).1
    (layShares f (excessStage f (committedPass act (12484 - g0)).1 (committedPass act (12484 - g0)).2).1 g0).2
  exact hlaid.mono (by omega)

end

/-! ### The plan -/

section
variable {carried : List PuOrder} {missed : List Serial} {s : State}

theorem rangingPick_length (carried : List PuOrder) (s : State) : (rangingPick carried s).length ≤ 2 := by
  unfold rangingPick
  split
  · exact List.length_take_le 2 _
  · exact Nat.zero_le 2

theorem layoutOrigin_le {l : List UnitNo} (c : ReachClass) (due : Bool) (h : l.length ≤ 2) : layoutOrigin c due l ≤ 12484 := by
  have hspan : span c ≤ 7000 := by cases c <;> decide
  unfold layoutOrigin
  split <;> omega

theorem plannedGrants_laid (carried : List PuOrder) (s : State) : Laid 0 (plannedGrants carried s) 12484 := by
  have horigin : layoutOrigin s.sc.reach (discoveryDue s) (rangingPick carried s) ≤ 12484 :=
    layoutOrigin_le _ _ (rangingPick_length carried s)
  refine ((layDiscovery_laid _ _).append (layRanging_laid _ _)).append ?_
  show Laid (layoutOrigin s.sc.reach (discoveryDue s) (rangingPick carried s)) (plannedUnits carried s).2 12484
  unfold plannedUnits
  split
  · exact unitGrants_laid horigin _ _ _
  · exact .nil horigin

/-- The state in which the plan of the event is made. -/
def planningState (s : State) : State := ordersCarried (countsRun s)

/-- The plan of round `n`. -/
def planOf (n : Nat) (carried : List PuOrder) (s : State) : Plan := ⟨n, plannedGrants carried s, 0⟩

theorem planOf_laid (n : Nat) (carried : List PuOrder) (s : State) : Laid 0 (planOf n carried s).grants 12484 :=
  plannedGrants_laid carried s

/-- The plan of the event. -/
def eventPlan (s : State) : Plan := planOf (countsRun s).tli.nextRound (frameOrdersOf (countsRun s)) (planningState s)

theorem latestPlan_assembleFrame (missed : List Serial) (s : State) :
    latestPlan (assembleFrame missed s) = some (planOf s.tli.nextRound (frameOrdersOf s) (ordersCarried s)) := by
  unfold latestPlan
  rw [(assembleFrame_sent missed s).gs]
  exact latestPlan_planRound

/-- The end of the event leaves the plans. -/
theorem latestPlan_latchTests (s : State) : latestPlan (latchTests (restepAfter s)) = latestPlan s :=
  congrArg (fun g : Grants => g.plans.getLast?) (restepAfter_search s).gs

theorem latestPlan_event (missed : List Serial) (s : State) :
    latestPlan (latchTests (restepAfter (frameGone missed s))) = some (eventPlan s) := by
  rw [latestPlan_latchTests]
  exact latestPlan_assembleFrame missed (countsRun s)

theorem eventPlan_laid (s : State) : Laid 0 (eventPlan s).grants 12484 := planOf_laid _ _ _

end

/-- Settles O5: every stage of the layout ends where the next begins, and the passes give no more than the capacity holds. -/
theorem plannedGrantsNeverOverlap : Obligations.PlannedGrantsNeverOverlap := by
  unfold Obligations.PlannedGrantsNeverOverlap
  intro missed s hheld
  have hlaid := eventPlan_laid s
  refine ⟨_, eventPlan s, exec_roundMarker hheld missed, latestPlan_event missed s, hlaid.pairwise, fun g hg => ?_⟩
  obtain ⟨-, hlt, hend⟩ := hlaid.within hg
  exact ⟨hlt, hend⟩

end Sys2Proof.Machine

/-!
PROOFS. What the passes of a plan give (R74 to R85).
-/
namespace Sys2Proof.Machine

-- One proof after another, as in the tests: side by side, the proofs of one text hold more stacks than the check's memory has room for.
set_option Elab.async false

section
variable {r : UnitNo → UnitRecord} {x : Gifts} {u : UnitNo} {l : List UnitNo} {rem e w f : Nat}

/-- The units with their records, as the passes take them. -/
def pairs (r : UnitNo → UnitRecord) (l : List UnitNo) : List (UnitNo × UnitRecord) := l.map (fun u => (u, r u))

/-- The share of unit `u` after the committed pass. -/
def earlyShare (r : UnitNo → UnitRecord) (x : Gifts) (u : UnitNo) : Share := ⟨u, r u, x.early u, x.pc u, 0⟩

/-- The share of unit `u` after the excess pass. -/
def fullShare (r : UnitNo → UnitRecord) (x : Gifts) (u : UnitNo) : Share :=
  ⟨u, r u, x.early u || decide (1 ≤ x.pe u), x.pc u, x.pe u⟩

/-! ### The committed pass (R76, R79, R80) -/

theorem committedPass_split (hpc : x.pc u = committedPayload (r u) rem)
    (hearly : x.early u = true ↔ 1 ≤ x.pc u ∨ ((r u).poll = 0 ∧ 10 ≤ rem)) (h : CommittedPass r l (rem - x.cost u) x) :
    CommittedPass r (u :: l) rem x := by
  intro a v b hl
  cases a with
  | nil =>
    obtain ⟨rfl, -⟩ := List.cons.inj hl
    exact ⟨hpc, hearly⟩
  | cons c a =>
    obtain ⟨rfl, hrest⟩ := List.cons.inj hl
    have hv := h a v b hrest
    rw [List.map_cons, List.sum_cons, ← Nat.sub_sub]
    exact hv

theorem cost_eq_shareCost (hpc : x.pc u = committedPayload (r u) rem)
    (hearly : x.early u = decide (1 ≤ committedPayload (r u) rem ∨ ((r u).poll = 0 ∧ 10 ≤ rem))) :
    x.cost u = shareCost (committedShare u (r u) rem) := by
  rw [shareCost_committedShare]
  unfold Gifts.cost
  rw [hpc, hearly]
  split
  · rfl
  next hno => simp [hno]

/-- The committed pass gives what R79 and R80 say, one unit after another. -/
theorem committedPass_gifts
    (hx : ∀ h ∈ (committedPass (pairs r l) rem).1, x.pc h.unit = h.pc ∧ x.early h.unit = h.granted) :
    CommittedPass r l rem x ∧ committedPass (pairs r l) rem = (l.map (earlyShare r x), rem - (l.map x.cost).sum) := by
  induction l generalizing rem with
  | nil =>
    refine ⟨fun a u b hl => ?_, rfl⟩
    cases a <;> cases hl
  | cons u l ih =>
    have hcons : committedPass (pairs r (u :: l)) rem = (committedShare u (r u) rem :: (committedPass (pairs r l) (rem - shareCost (committedShare u (r u) rem))).1,
        (committedPass (pairs r l) (rem - shareCost (committedShare u (r u) rem))).2) := committedPass_cons (pairs r l)
    rw [hcons] at hx ⊢
    obtain ⟨⟨hpc, hearly⟩, hrest⟩ := List.forall_mem_cons.mp hx
    have hcost : x.cost u = shareCost (committedShare u (r u) rem) := cost_eq_shareCost hpc hearly
    rw [← hcost] at hrest ⊢
    obtain ⟨htail, heq⟩ := ih hrest
    have hpc' : x.pc u = committedPayload (r u) rem := hpc
    have hearly' : x.early u = decide (1 ≤ committedPayload (r u) rem ∨ ((r u).poll = 0 ∧ 10 ≤ rem)) := hearly
    refine ⟨committedPass_split hpc (by rw [hearly', hpc', decide_eq_true_eq]) htail, ?_⟩
    rw [heq, List.map_cons, List.map_cons, List.sum_cons, ← Nat.sub_sub]
    have hshare : committedShare u (r u) rem = earlyShare r x u := by
      unfold committedShare earlyShare
      rw [hpc', hearly']
    rw [hshare]

theorem committedPayload_le {q : UnitRecord} : committedPayload q rem ≤ q.credit / 256 ∧ committedPayload q rem ≤ 8 * q.profile.pk := by
  have hle : committedPayload q rem ≤ min (demand q) (min (q.credit / 256) (peak q.profile)) := by
    unfold committedPayload
    simp only
    split_ifs <;> omega
  have hpeak : peak q.profile = 8 * q.profile.pk := rfl
  omega

theorem CommittedPass.bounds (h : CommittedPass r l rem x) (hu : u ∈ l) : 256 * x.pc u ≤ (r u).credit ∧ x.pc u ≤ 8 * (r u).profile.pk := by
  obtain ⟨a, b, hl⟩ := List.append_of_mem hu
  obtain ⟨hpc, -⟩ := h a u b hl
  have hpc' : x.pc u = committedPayload (r u) (rem - (a.map x.cost).sum) := hpc
  obtain ⟨hcredit, hpeak⟩ := committedPayload_le (q := r u) (rem := rem - (a.map x.cost).sum)
  rw [hpc']
  exact ⟨by omega, hpeak⟩

theorem CommittedPass.early (h : CommittedPass r l rem x) (hu : u ∈ l) (hpc : 1 ≤ x.pc u) : x.early u = true := by
  obtain ⟨a, b, hl⟩ := List.append_of_mem hu
  exact (h a u b hl).2.mpr (.inl hpc)

/-! ### The excess pass (R81 to R83) -/

/-- The excess pass with `e` grains on offer and weights that sum up to `w`. -/
def ExcessGiven (r : UnitNo → UnitRecord) (l : List UnitNo) (left e w : Nat) (x : Gifts) : Prop :=
  ∀ a u b, l = a ++ u :: b → x.pe u = excessPayload e w (left - (a.map x.extra).sum) (earlyShare r x u)

theorem excessEligible_iff : excessEligible (earlyShare r x u) = true ↔ x.want r u ≠ 0 := by
  have hwant : excessWant (earlyShare r x u) = min ((r u).report - (r u).outstanding - x.pc u) (8 * (r u).profile.pk - x.pc u) := rfl
  unfold excessEligible Gifts.want
  rw [hwant, Bool.and_eq_true, decide_eq_true_eq, decide_eq_true_eq]
  have hrecord : (earlyShare r x u).record = r u := rfl
  rw [hrecord]
  split <;> omega

theorem want_of_ne (h : x.want r u ≠ 0) : x.want r u = excessWant (earlyShare r x u) := by
  unfold Gifts.want at h ⊢
  split at h
  · exact absurd rfl h
  next hw => rw [if_neg hw]; rfl

theorem excessPayload_earlyShare : excessPayload e w rem (earlyShare r x u) = if x.want r u = 0 then 0
    else if x.early u then min (e * (r u).profile.w / w) (min (x.want r u) rem)
    else min (e * (r u).profile.w / w - 10) (min (x.want r u) (rem - 10)) := by
  unfold excessPayload
  by_cases hwant : x.want r u = 0
  · rw [if_neg (fun he => excessEligible_iff.mp he hwant), if_pos hwant]
  · rw [if_pos (excessEligible_iff.mpr hwant), if_neg hwant, want_of_ne hwant]
    rfl

theorem weightSum_eq (l : List UnitNo) :
    weightSum (l.map (earlyShare r x)) = ((l.filter (fun v => decide (1 ≤ x.want r v))).map (fun v => (r v).profile.w)).sum := by
  unfold weightSum
  have hfilter : (fun v => excessEligible (earlyShare r x v)) = fun v => decide (1 ≤ x.want r v) := by
    funext v
    rw [Bool.eq_iff_iff, excessEligible_iff, decide_eq_true_eq, Nat.one_le_iff_ne_zero]
  rw [List.filter_map, List.map_map]
  show ((l.filter (fun v => excessEligible (earlyShare r x v))).map _).sum = _
  rw [hfilter]
  rfl

theorem excessGiven_split (hpe : x.pe u = excessPayload e w rem (earlyShare r x u)) (h : ExcessGiven r l (rem - x.extra u) e w x) :
    ExcessGiven r (u :: l) rem e w x := by
  intro a v b hl
  cases a with
  | nil =>
    obtain ⟨rfl, -⟩ := List.cons.inj hl
    exact hpe
  | cons c a =>
    obtain ⟨rfl, hrest⟩ := List.cons.inj hl
    rw [h a v b hrest, List.map_cons, List.sum_cons, Nat.sub_sub]

theorem extra_eq_excessCost (hpe : x.pe u = excessPayload e w rem (earlyShare r x u)) :
    x.extra u = excessCost e w rem (earlyShare r x u) := by
  unfold Gifts.extra excessCost
  rw [← hpe]
  rfl

theorem excessPass_gifts (hx : ∀ h ∈ (excessPass e w (l.map (earlyShare r x)) rem).1, x.pe h.unit = h.pe) :
    ExcessGiven r l rem e w x
      ∧ excessPass e w (l.map (earlyShare r x)) rem = (l.map (fullShare r x), rem - (l.map x.extra).sum) := by
  induction l generalizing rem with
  | nil =>
    refine ⟨fun a u b hl => ?_, rfl⟩
    cases a <;> cases hl
  | cons u l ih =>
    have hcons : excessPass e w ((u :: l).map (earlyShare r x)) rem
        = (excessShare e w rem (earlyShare r x u) :: (excessPass e w (l.map (earlyShare r x)) (rem - excessCost e w rem (earlyShare r x u))).1,
          (excessPass e w (l.map (earlyShare r x)) (rem - excessCost e w rem (earlyShare r x u))).2) :=
      excessPass_cons (h := earlyShare r x u) rfl
    rw [hcons] at hx ⊢
    obtain ⟨hpe, hrest⟩ := List.forall_mem_cons.mp hx
    have hpe' : x.pe u = excessPayload e w rem (earlyShare r x u) := hpe
    rw [← extra_eq_excessCost hpe'] at hrest ⊢
    obtain ⟨htail, heq⟩ := ih hrest
    refine ⟨excessGiven_split hpe' htail, ?_⟩
    have hshare : excessShare e w rem (earlyShare r x u) = fullShare r x u := by
      unfold excessShare fullShare
      rw [← hpe']
      rfl
    rw [heq, hshare, List.map_cons, List.map_cons, List.sum_cons, ← Nat.sub_sub]

/-- The excess stage gives what R81 to R83 say. -/
theorem excessStage_gifts (hx : ∀ h ∈ (excessStage f (l.map (earlyShare r x)) rem).1, x.pe h.unit = h.pe) :
    ExcessPass r l rem f x ∧ excessStage f (l.map (earlyShare r x)) rem = (l.map (fullShare r x), rem - (l.map x.extra).sum) := by
  by_cases hrun : 1 ≤ rem * f / 256 ∧ 1 ≤ weightSum (l.map (earlyShare r x))
  · have hstage : excessStage f (l.map (earlyShare r x)) rem
        = excessPass (rem * f / 256) (weightSum (l.map (earlyShare r x))) (l.map (earlyShare r x)) rem := if_pos hrun
    rw [hstage] at hx ⊢
    obtain ⟨hgiven, heq⟩ := excessPass_gifts hx
    refine ⟨fun a u b hl => ?_, heq⟩
    obtain ⟨he, hw⟩ := hrun
    have hpe := hgiven a u b hl
    rw [excessPayload_earlyShare] at hpe
    rw [weightSum_eq] at hpe hw
    simp only [hpe, show ¬rem * f / 256 = 0 by omega, Nat.one_le_iff_ne_zero.mp hw, false_or]
  · have hstage : excessStage f (l.map (earlyShare r x)) rem = (l.map (earlyShare r x), rem) := if_neg hrun
    rw [hstage] at hx ⊢
    have hpe : ∀ u ∈ l, x.pe u = 0 := fun u hu => hx _ (List.mem_map_of_mem hu)
    refine ⟨fun a u b hl => ?_, ?_⟩
    · have hu : u ∈ l := by rw [hl]; exact List.mem_append_right _ List.mem_cons_self
      rw [weightSum_eq] at hrun
      have hnone : rem * f / 256 = 0
          ∨ ((l.filter (fun v => decide (1 ≤ x.want r v))).map (fun v => (r v).profile.w)).sum = 0 := by omega
      rw [hpe u hu]
      exact (if_pos (hnone.imp_right .inl)).symm
    · have hextra : (l.map x.extra).sum = 0 := by
        rw [List.sum_eq_zero_iff]
        intro k hk
        obtain ⟨u, hu, rfl⟩ := List.mem_map.mp hk
        exact if_pos (hpe u hu)
      have hshares : l.map (earlyShare r x) = l.map (fullShare r x) := List.map_congr_left fun u hu => by
        simp [earlyShare, fullShare, hpe u hu]
      rw [hextra, hshares]
      rfl

theorem ExcessPass.bound (h : ExcessPass r l rem f x) (hu : u ∈ l) : x.pe u ≤ 8 * (r u).profile.pk - x.pc u := by
  obtain ⟨a, b, hl⟩ := List.append_of_mem hu
  have hpe := h a u b hl
  have hwant : x.want r u ≤ 8 * (r u).profile.pk - x.pc u := by
    unfold Gifts.want
    split
    · exact Nat.zero_le _
    · exact Nat.min_le_right _ _
  simp only at hpe
  rw [hpe]
  split_ifs <;> omega

/-! ### The polls of LOST records (R85) -/

theorem lostPolls_sublist (l : List UnitNo) (rem : Nat) : (lostPolls (pairs r l) rem).1.Sublist l := by
  induction l generalizing rem with
  | nil => exact .slnil
  | cons u l ih =>
    have hcons : lostPolls (pairs r (u :: l)) rem = if (r u).poll = 0 ∧ 10 ≤ rem then
        (u :: (lostPolls (pairs r l) (rem - 10)).1, (lostPolls (pairs r l) (rem - 10)).2) else lostPolls (pairs r l) rem :=
      lostPolls_cons (pairs r l)
    rw [hcons]
    split
    · exact (ih _).cons_cons u
    · exact (ih _).cons u

/-- The polls go out as R85 says. -/
theorem lostPolls_gifts (hl : l.Nodup) (hx : ∀ u ∈ l, (x.polled u = true ↔ u ∈ (lostPolls (pairs r l) rem).1)) : LostPolls r l rem x := by
  induction l generalizing rem with
  | nil =>
    intro a u b hl
    cases a <;> cases hl
  | cons u l ih =>
    obtain ⟨hu, hnodup⟩ := List.nodup_cons.mp hl
    have hcons : lostPolls (pairs r (u :: l)) rem = if (r u).poll = 0 ∧ 10 ≤ rem then
        (u :: (lostPolls (pairs r l) (rem - 10)).1, (lostPolls (pairs r l) (rem - 10)).2) else lostPolls (pairs r l) rem :=
      lostPolls_cons (pairs r l)
    rw [hcons] at hx
    have hnotIn : ∀ k, u ∉ (lostPolls (pairs r l) k).1 := fun k h => hu ((lostPolls_sublist l k).subset h)
    have hne : ∀ v ∈ l, v ≠ u := fun v hv he => hu (he ▸ hv)
    have hhead : x.polled u = true ↔ (r u).poll = 0 ∧ 10 ≤ rem := by
      rw [hx u List.mem_cons_self]
      split
      next hp => simp [hp]
      next hp => simp [hp, hnotIn]
    have htail : LostPolls r l (rem - if x.polled u then 10 else 0) x := by
      refine ih hnodup fun v hv => ?_
      rw [hx v (List.mem_cons_of_mem u hv)]
      by_cases hp : (r u).poll = 0 ∧ 10 ≤ rem
      · rw [if_pos hp, if_pos (hhead.mpr hp)]
        simp [hne v hv]
      · rw [if_neg hp, if_neg (mt hhead.mp hp), Nat.sub_zero]
    intro a v b hl
    cases a with
    | nil =>
      obtain ⟨rfl, -⟩ := List.cons.inj hl
      exact hhead
    | cons c a =>
      obtain ⟨rfl, hrest⟩ := List.cons.inj hl
      rw [htail a v b hrest, List.map_cons, List.sum_cons, Nat.sub_sub]

/-! ### The passes together -/

/-- The share of unit `u`, if there is one. -/
def shareOf (l : List Share) (u : UnitNo) : Option Share := l.find? (fun h => h.unit == u)

theorem shareOf_mem {shares : List Share} (hl : (shares.map (·.unit)).Nodup) {h : Share} (hh : h ∈ shares) :
    shareOf shares h.unit = some h := by
  induction shares with
  | nil => cases hh
  | cons k shares ih =>
    rw [List.map_cons, List.nodup_cons] at hl
    obtain ⟨hk, hrest⟩ := hl
    unfold shareOf
    rcases List.mem_cons.mp hh with rfl | hh
    · simp
    · have hne : (k.unit == h.unit) = false := beq_eq_false_iff_ne.mpr fun he => hk (he ▸ List.mem_map_of_mem hh)
      rw [List.find?_cons, hne]
      exact ih hrest hh

/-- What the shares after the committed pass, those after the excess pass, and the polls give each unit. -/
def giftsOf (com exc : List Share) (polls : List UnitNo) : Gifts where
  pc u     := ((shareOf com u).map (·.pc)).getD 0
  pe u     := ((shareOf exc u).map (·.pe)).getD 0
  early u  := (shareOf com u).any (·.granted)
  polled u := polls.contains u

theorem committedPass_units (l : List UnitNo) (rem : Nat) : (committedPass (pairs r l) rem).1.map (·.unit) = l := by
  induction l generalizing rem with
  | nil => rfl
  | cons u l ih =>
    have hcons : committedPass (pairs r (u :: l)) rem = (committedShare u (r u) rem :: (committedPass (pairs r l) (rem - shareCost (committedShare u (r u) rem))).1,
        (committedPass (pairs r l) (rem - shareCost (committedShare u (r u) rem))).2) := committedPass_cons (pairs r l)
    rw [hcons, List.map_cons, ih]
    rfl

theorem excessPass_units {shares : List Share} (h : ∀ k ∈ shares, Fresh k) :
    (excessPass e w shares rem).1.map (·.unit) = shares.map (·.unit) := by
  induction shares generalizing rem with
  | nil => rfl
  | cons k shares ih =>
    obtain ⟨hk, hrest⟩ := List.forall_mem_cons.mp h
    rw [excessPass_cons hk.1, List.map_cons, List.map_cons, ih hrest]
    rfl

theorem excessStage_units {shares : List Share} (h : ∀ k ∈ shares, Fresh k) :
    (excessStage f shares rem).1.map (·.unit) = shares.map (·.unit) := by
  unfold excessStage
  simp only
  split
  · exact excessPass_units h
  · rfl

/-- What the passes over the units `act` and `lost` with `cap` grains give. -/
structure Served (r : UnitNo → UnitRecord) (act lost : List UnitNo) (cap f : Nat) (x : Gifts) (shares : List Share) (polls : List UnitNo) :
    Prop where
  committed : CommittedPass r act cap x
  excess    : ExcessPass r act (cap - (act.map x.cost).sum) f x
  lostPolls : LostPolls r lost (cap - (act.map x.cost).sum - (act.map x.extra).sum) x
  shares    : shares = act.map (fullShare r x)
  polled    : ∀ u, u ∈ polls ↔ u ∈ lost ∧ x.polled u = true
  sublist   : polls.Sublist lost

theorem passes_served {act lost : List UnitNo} (hact : act.Nodup) (hlost : lost.Nodup) (r : UnitNo → UnitRecord) (cap f : Nat) :
    let com := committedPass (pairs r act) cap
    let exc := excessStage f com.1 com.2
    let pol := lostPolls (pairs r lost) exc.2
    ∃ x, Served r act lost cap f x exc.1 pol.1 := by
  intro com exc pol
  have hcomUnits : com.1.map (·.unit) = act := committedPass_units act cap
  have hfresh : ∀ h ∈ com.1, Fresh h := committedPass_fresh (pairs r act) cap
  have hexcUnits : exc.1.map (·.unit) = act := (excessStage_units hfresh).trans hcomUnits
  have hsub : pol.1.Sublist lost := lostPolls_sublist lost exc.2
  let x := giftsOf com.1 exc.1 pol.1
  have hcom : ∀ h ∈ com.1, x.pc h.unit = h.pc ∧ x.early h.unit = h.granted := fun h hh => by
    have hshare : shareOf com.1 h.unit = some h := shareOf_mem (by rw [hcomUnits]; exact hact) hh
    simp only [x, giftsOf, hshare]
    exact ⟨rfl, rfl⟩
  have hexc : ∀ h ∈ exc.1, x.pe h.unit = h.pe := fun h hh => by
    have hshare : shareOf exc.1 h.unit = some h := shareOf_mem (by rw [hexcUnits]; exact hact) hh
    simp only [x, giftsOf, hshare]
    rfl
  have hpol : ∀ u, x.polled u = true ↔ u ∈ pol.1 := fun u => List.contains_iff_mem
  clear_value x
  obtain ⟨hcommitted, hcomEq⟩ := committedPass_gifts hcom
  have hcom1 : com.1 = act.map (earlyShare r x) := congrArg Prod.fst hcomEq
  have hcom2 : com.2 = cap - (act.map x.cost).sum := congrArg Prod.snd hcomEq
  have hexcDef : exc = excessStage f (act.map (earlyShare r x)) (cap - (act.map x.cost).sum) := by
    rw [← hcom1, ← hcom2]
  rw [hexcDef] at hexc
  obtain ⟨hexcess, hexcEq⟩ := excessStage_gifts hexc
  rw [← hexcDef] at hexcEq
  have hexc1 : exc.1 = act.map (fullShare r x) := congrArg Prod.fst hexcEq
  have hexc2 : exc.2 = cap - (act.map x.cost).sum - (act.map x.extra).sum := congrArg Prod.snd hexcEq
  refine ⟨x, hcommitted, hexcess, ?_, hexc1, fun u => ?_, hsub⟩
  · rw [← hexc2]
    exact lostPolls_gifts hlost fun u _ => hpol u
  · rw [hpol]
    exact ⟨fun h => ⟨hsub.subset h, h⟩, And.right⟩

end

end Sys2Proof.Machine

/-!
PROOFS. What a plan made in SERVING gives and charges (O7).
-/
namespace Sys2Proof.Machine

-- One proof after another, as in the tests: side by side, the proofs of one text hold more stacks than the check's memory has room for.
set_option Elab.async false

/-! ### The unit grants one by one (R86, R87) -/

/-- The grant of a share at grain `start`. -/
def shareGrant (f : Nat) (h : Share) (start : Nat) : GrantRecord :=
  newGrant h.unit.val (if 1 ≤ h.pc + h.pe then .data else .reportOnly) start (10 + h.pc + h.pe) h.pc h.pe
    (decide (1 ≤ h.pe) && decide (f < 256))

section
variable {f : Nat} {shares : List Share} {polls : List UnitNo} {g : GrantRecord} {u : UnitNo}

theorem layShares_cons (h : Share) (start : Nat) : layShares f (h :: shares) start = if h.granted then
    (shareGrant f h start :: (layShares f shares (start + 10 + h.pc + h.pe)).1, (layShares f shares (start + 10 + h.pc + h.pe)).2)
    else layShares f shares start := by
  rw [layShares]
  rfl

theorem mem_layShares {start : Nat} (hg : g ∈ (layShares f shares start).1) :
    ∃ h ∈ shares, h.granted = true ∧ ∃ k, g = shareGrant f h k := by
  induction shares generalizing start with
  | nil => cases hg
  | cons h shares ih =>
    rw [layShares_cons] at hg
    split at hg
    next hgranted =>
      rcases List.mem_cons.mp hg with rfl | hg
      · exact ⟨h, List.mem_cons_self, hgranted, start, rfl⟩
      · obtain ⟨k, hk, hrest⟩ := ih hg
        exact ⟨k, List.mem_cons_of_mem h hk, hrest⟩
    next =>
      obtain ⟨k, hk, hrest⟩ := ih hg
      exact ⟨k, List.mem_cons_of_mem h hk, hrest⟩

theorem layShares_units (f : Nat) (shares : List Share) (start : Nat) :
    (layShares f shares start).1.map (·.unit) = (shares.filter (·.granted)).map (fun h => h.unit.val) := by
  induction shares generalizing start with
  | nil => rfl
  | cons h shares ih =>
    rw [layShares_cons]
    cases hg : h.granted with
    | true => simp only [if_true, List.map_cons, List.filter_cons, hg, ih]; rfl
    | false => simp only [Bool.false_eq_true, if_false, List.filter_cons, hg, ih]

theorem mem_layPolls {start : Nat} (hg : g ∈ layPolls polls start) : ∃ u ∈ polls, ∃ k, g = newGrant u.val .reportOnly k 10 0 0 false := by
  induction polls generalizing start with
  | nil => cases hg
  | cons u polls ih =>
    rcases List.mem_cons.mp hg with rfl | hg
    · exact ⟨u, List.mem_cons_self, start, rfl⟩
    · obtain ⟨v, hv, hrest⟩ := ih hg
      exact ⟨v, List.mem_cons_of_mem u hv, hrest⟩

theorem layPolls_units (polls : List UnitNo) (start : Nat) : (layPolls polls start).map (·.unit) = polls.map (·.val) := by
  induction polls generalizing start with
  | nil => rfl
  | cons u polls ih =>
    rw [layPolls, List.map_cons, List.map_cons, ih]
    rfl

/-- The grant is one of the two that answer a unit (R93). -/
def ForUnit (g : GrantRecord) : Prop := g.kind = .data ∨ g.kind = .reportOnly

theorem shareGrant_forUnit (f : Nat) (h : Share) (k : Nat) : ForUnit (shareGrant f h k) := by
  have hkind : (shareGrant f h k).kind = if 1 ≤ h.pc + h.pe then .data else .reportOnly := rfl
  unfold ForUnit
  rw [hkind]
  split
  · exact .inl rfl
  · exact .inr rfl

/-! ### The windows of a plan (R71, R72) -/

theorem layDiscovery_kind {c : ReachClass} {due : Bool} (hg : g ∈ layDiscovery c due) :
    due = true ∧ g = newGrant 64 .discovery (span c) (span c + 76) 0 0 false := by
  unfold layDiscovery at hg
  split at hg
  next hdue => exact ⟨hdue, List.mem_singleton.mp hg⟩
  next => cases hg

theorem mem_layRanging {l : List UnitNo} {w : Nat} (hg : g ∈ layRanging l w) :
    ∃ u ∈ l, ∃ k, g = newGrant u.val .ranging k 12 0 0 false := by
  induction l generalizing w with
  | nil => cases hg
  | cons u l ih =>
    rcases List.mem_cons.mp hg with rfl | hg
    · exact ⟨u, List.mem_cons_self, w + 8, rfl⟩
    · obtain ⟨v, hv, hrest⟩ := ih hg
      exact ⟨v, List.mem_cons_of_mem u hv, hrest⟩

theorem layRanging_units (l : List UnitNo) (w : Nat) : (layRanging l w).map (·.unit) = l.map (·.val) := by
  induction l generalizing w with
  | nil => rfl
  | cons u l ih =>
    rw [layRanging, List.map_cons, List.map_cons, ih]
    rfl

/-- What one grant takes as a window. -/
def windowOf (g : GrantRecord) : Nat :=
  match g.kind with
  | .discovery => g.length
  | .ranging => 28
  | .data => 0
  | .reportOnly => 0

theorem windowOf_forUnit (hg : ForUnit g) : windowOf g = 0 := by
  unfold windowOf
  rcases hg with h | h <;> rw [h]

theorem windows_layDiscovery (c : ReachClass) (due : Bool) : ((layDiscovery c due).map windowOf).sum = discoverySpan c due := by
  cases due <;> rfl

theorem windows_layRanging (l : List UnitNo) (w : Nat) : ((layRanging l w).map windowOf).sum = 28 * l.length := by
  induction l generalizing w with
  | nil => rfl
  | cons u l ih =>
    have hhead : windowOf (newGrant u.val .ranging (w + 8) 12 0 0 false) = 28 := rfl
    rw [layRanging, List.map_cons, List.sum_cons, ih, hhead, List.length_cons]
    omega

theorem windows_forUnits {l : List GrantRecord} (h : ∀ g ∈ l, ForUnit g) : (l.map windowOf).sum = 0 := by
  rw [List.sum_eq_zero_iff]
  intro k hk
  obtain ⟨g, hg, rfl⟩ := List.mem_map.mp hk
  exact windowOf_forUnit (h g hg)

end

/-! ### The records that the passes see (R25, R32, R73, R74, R77) -/

theorem lowered_added (q : UnitRecord) : lowerPoll (addCredit q) = { q with
    credit := if q.state = .active ∧ q.hush = false then min (q.credit + crq q.profile) (bmax q.profile) else q.credit
    poll := if (q.state = .active ∨ q.state = .lost) ∧ q.hush = false then q.poll - 1 else q.poll } := by
  have hadd : addCredit q = { q with
      credit := if q.state = .active ∧ q.hush = false then min (q.credit + crq q.profile) (bmax q.profile) else q.credit } := by
    unfold addCredit
    split <;> rfl
  have hlower : ∀ p : UnitRecord, lowerPoll p = { p with
      poll := if (p.state = .active ∨ p.state = .lost) ∧ p.hush = false then p.poll - 1 else p.poll } := fun p => by
    unfold lowerPoll serves
    simp only [Bool.or_eq_true, beq_iff_eq]
    split <;> rfl
  rw [hlower, hadd]

theorem readyRecord_eq (r : UnitRecord) : lowerPoll (addCredit (applyStaged r)) = readyRecord r := by
  rw [lowered_added]
  unfold applyStaged readyRecord
  cases hs : r.staged with
  | none =>
    obtain ⟨⟩ := r
    subst hs
    rfl
  | some p => rfl

section
variable {n : Nat} {carried : List PuOrder} {s : State} {u : UnitNo}

/-- The records as the passes see them. -/
def readyUnits (s : State) : Vector UnitRecord 64 := vmap (fun r => lowerPoll (addCredit r)) (vmap applyStaged s.ut)

theorem readyUnits_get (s : State) (u : UnitNo) : (readyUnits s).get u = readyRecord (getU u s) := by
  unfold readyUnits
  rw [vmap_get, vmap_get]
  exact readyRecord_eq _

/-- The units in this state without the hush flag, in ring order (R78). -/
def ringUnits (st : RecState) (s : State) : List UnitNo :=
  ((List.finRange 64).map (fun i => s.gs.servicePtr + i)).filter (fun u => (getU u s).state == st && !(getU u s).hush)

theorem ringUnits_nodup (st : RecState) (s : State) : (ringUnits st s).Nodup :=
  ((List.nodup_finRange 64).map (fun _ _ h => add_left_cancel h)).filter _

theorem mem_ringUnits {st : RecState} : u ∈ ringUnits st s ↔ (getU u s).state = st ∧ (getU u s).hush = false := by
  have hring : u ∈ (List.finRange 64).map (fun i => s.gs.servicePtr + i) :=
    List.mem_map.mpr ⟨u - s.gs.servicePtr, List.mem_finRange _, add_sub_cancel s.gs.servicePtr u⟩
  unfold ringUnits
  rw [List.mem_filter, and_iff_right hring]
  simp

/-! ### The unit grants of a plan in SERVING (R78, R86) -/

/-- The units the passes serve, with the records they see. -/
theorem ringPairs (st : RecState) (s : State) :
    ((ringFrom s.gs.servicePtr).map (fun u => (u, (readyUnits s).get u))).filter (fun x => x.2.state == st && !x.2.hush)
      = pairs (fun u => readyRecord (getU u s)) (ringUnits st s) := by
  unfold pairs ringUnits
  rw [List.filter_map]
  have hready : (fun u => (u, (readyUnits s).get u)) = fun u => (u, readyRecord (getU u s)) := by
    funext u
    rw [readyUnits_get]
  rw [hready]
  rfl

/-- The grants that the passes of a plan in SERVING lead to, the shares and the polls. -/
theorem unitGrants_served (g0 : Nat) (s : State) : ∃ x shares polls,
    Served (fun u => readyRecord (getU u s)) (ringUnits .active s) (ringUnits .lost s) (12484 - g0) s.dv.factor x shares polls
      ∧ unitGrants g0 s.dv.factor s.gs.servicePtr (readyUnits s)
        = ((layShares s.dv.factor shares g0).1 ++ layPolls polls (layShares s.dv.factor shares g0).2, shares, polls) := by
  obtain ⟨x, hx⟩ := passes_served (ringUnits_nodup .active s) (ringUnits_nodup .lost s) (fun u => readyRecord (getU u s)) (12484 - g0)
    s.dv.factor
  refine ⟨x, _, _, hx, ?_⟩
  unfold unitGrants
  simp only [ringPairs]

/-- A run of writes, each to a unit of its own. -/
theorem get_foldl_set {l : List UnitNo} (hl : l.Nodup) (F : UnitNo → UnitRecord → UnitRecord) (v : Vector UnitRecord 64) (u : UnitNo) :
    (l.foldl (fun v k => v.set k (F k (v.get k))) v).get u = if u ∈ l then F u (v.get u) else v.get u := by
  induction l generalizing v with
  | nil => simp
  | cons k l ih =>
    obtain ⟨hk, hrest⟩ := List.nodup_cons.mp hl
    rw [List.foldl_cons, ih hrest, vector_get_set]
    by_cases hku : k = u
    · subst hku
      simp [hk]
    · simp [hku, Ne.symm hku]

/-- The record of unit `u` after the plan. -/
theorem serveUnits_get {r : UnitNo → UnitRecord} {act lost : List UnitNo} {cap f g0 : Nat} {x : Gifts} {shares : List Share}
    {polls : List UnitNo} {p : UnitNo} {ut : Vector UnitRecord 64} {grants : List GrantRecord} (hact : act.Nodup) (hlost : lost.Nodup)
    (hx : Served r act lost cap f x shares polls) (hready : ∀ u, (vmap (fun r => lowerPoll (addCredit r)) ut).get u = r u)
    (hgrants : unitGrants g0 f p (vmap (fun r => lowerPoll (addCredit r)) ut) = (grants, shares, polls)) (u : UnitNo) :
    (serveUnits g0 f p ut).2 = grants ∧ (serveUnits g0 f p ut).1.get u
      = let q := if u ∈ act then grantRecordTo (fullShare r x u) (r u) else r u
        if u ∈ polls then { q with poll := 64 } else q := by
  unfold serveUnits
  simp only [hgrants, hx.shares, List.foldl_map]
  refine ⟨trivial, ?_⟩
  rw [get_foldl_set (hx.sublist.nodup hlost) (fun _ q => { q with poll := 64 })]
  have hshares : (act.foldl (fun v k => v.set (fullShare r x k).unit (grantRecordTo (fullShare r x k) (v.get (fullShare r x k).unit)))
      (vmap (fun r => lowerPoll (addCredit r)) ut)).get u = if u ∈ act then grantRecordTo (fullShare r x u) (r u) else r u := by
    rw [← hready]
    exact get_foldl_set hact (fun k => grantRecordTo (fullShare r x k)) _ u
  rw [hshares]

/-- A plan made in SERVING: what its passes give, its unit grants, and its records. -/
structure PlanServed (carried : List PuOrder) (s : State) (x : Gifts) (shares : List Share) (polls : List UnitNo) : Prop where
  served  : Served (fun u => readyRecord (getU u s)) (ringUnits .active s) (ringUnits .lost s)
    (12484 - layoutOrigin s.sc.reach (discoveryDue s) (rangingPick carried s)) s.dv.factor x shares polls
  grants  : ∃ k, (plannedUnits carried s).2
    = (layShares s.dv.factor shares (layoutOrigin s.sc.reach (discoveryDue s) (rangingPick carried s))).1 ++ layPolls polls k
  records : ∀ u, (plannedUnits carried s).1.get u
    = let q := if u ∈ ringUnits .active s then
        grantRecordTo (fullShare (fun u => readyRecord (getU u s)) x u) (readyRecord (getU u s)) else readyRecord (getU u s)
      if u ∈ polls then { q with poll := 64 } else q

theorem plan_served (hserving : s.sc.phase = .serving) (carried : List PuOrder) : ∃ x shares polls, PlanServed carried s x shares polls := by
  obtain ⟨x, shares, polls, hx, hgrants⟩ := unitGrants_served (layoutOrigin s.sc.reach (discoveryDue s) (rangingPick carried s)) s
  have hplanned : plannedUnits carried s = serveUnits (layoutOrigin s.sc.reach (discoveryDue s) (rangingPick carried s)) s.dv.factor
      s.gs.servicePtr (vmap applyStaged s.ut) := if_pos hserving
  have hget := serveUnits_get (ringUnits_nodup .active s) (ringUnits_nodup .lost s) hx (readyUnits_get s) hgrants
  exact ⟨x, shares, polls, hx, ⟨_, (congrArg Prod.snd hplanned).trans (hget 0).1⟩,
    fun u => (congrArg (fun v : Vector UnitRecord 64 × List GrantRecord => v.1.get u) hplanned).trans (hget u).2⟩

/-! ### Grants and gifts -/

section
variable {x : Gifts} {shares : List Share} {polls : List UnitNo} {g : GrantRecord}

/-- A unit grant is one of the passes or a poll. -/
theorem PlanServed.of_mem (h : PlanServed carried s x shares polls) (hg : g ∈ (plannedUnits carried s).2) :
    (∃ u ∈ ringUnits .active s, (x.early u = true ∨ 1 ≤ x.pe u)
        ∧ ∃ k, g = shareGrant s.dv.factor (fullShare (fun u => readyRecord (getU u s)) x u) k)
      ∨ ∃ u ∈ polls, ∃ k, g = newGrant u.val .reportOnly k 10 0 0 false := by
  obtain ⟨k, hk⟩ := h.grants
  rw [hk] at hg
  rcases List.mem_append.mp hg with hg | hg
  · obtain ⟨share, hshare, hgranted, hrest⟩ := mem_layShares hg
    rw [h.served.shares] at hshare
    obtain ⟨u, hu, rfl⟩ := List.mem_map.mp hshare
    have hgranted' : (x.early u || decide (1 ≤ x.pe u)) = true := hgranted
    exact .inl ⟨u, hu, by simpa using hgranted', hrest⟩
  · exact .inr (mem_layPolls hg)

theorem PlanServed.forUnits (h : PlanServed carried s x shares polls) : ∀ g ∈ (plannedUnits carried s).2, ForUnit g := by
  intro g hg
  rcases h.of_mem hg with ⟨u, -, -, k, rfl⟩ | ⟨u, -, k, rfl⟩
  · exact shareGrant_forUnit _ _ _
  · exact .inr rfl

/-- Every unit with a share or a poll has its grant. -/
theorem PlanServed.mem_units (h : PlanServed carried s x shares polls) {k : Nat} : k ∈ (plannedUnits carried s).2.map (·.unit)
    ↔ ∃ u : UnitNo, k = u.val ∧ ((u ∈ ringUnits .active s ∧ (x.early u = true ∨ 1 ≤ x.pe u)) ∨ u ∈ polls) := by
  obtain ⟨j, hj⟩ := h.grants
  rw [hj, List.map_append, List.mem_append, layShares_units, layPolls_units, h.served.shares]
  simp only [List.mem_map, List.mem_filter, fullShare]
  constructor
  · rintro (⟨share, ⟨⟨u, hu, rfl⟩, hgranted⟩, rfl⟩ | ⟨u, hu, rfl⟩)
    · exact ⟨u, rfl, .inl ⟨hu, by simpa using hgranted⟩⟩
    · exact ⟨u, rfl, .inr hu⟩
  · rintro ⟨u, rfl, ⟨hu, hgranted⟩ | hu⟩
    · exact .inl ⟨_, ⟨⟨u, hu, rfl⟩, by simpa using hgranted⟩, rfl⟩
    · exact .inr ⟨u, hu, rfl⟩

/-- The unit grants of a plan are those that answer a unit. -/
theorem PlanServed.mem_plannedGrants (h : PlanServed carried s x shares polls) :
    g ∈ plannedGrants carried s ∧ ForUnit g ↔ g ∈ (plannedUnits carried s).2 := by
  refine ⟨fun ⟨hg, hkind⟩ => ?_, fun hg => ⟨List.mem_append_right _ hg, h.forUnits g hg⟩⟩
  rcases List.mem_append.mp hg with hg | hg
  · rcases List.mem_append.mp hg with hg | hg
    · obtain ⟨-, rfl⟩ := layDiscovery_kind hg
      exact absurd hkind (by simp [ForUnit, newGrant])
    · obtain ⟨u, -, k, rfl⟩ := mem_layRanging hg
      exact absurd hkind (by simp [ForUnit, newGrant])
  · exact hg

theorem PlanServed.windows (h : PlanServed carried s x shares polls) :
    windowGrains (planOf n carried s) = layoutOrigin s.sc.reach (discoveryDue s) (rangingPick carried s) := by
  show ((plannedGrants carried s).map windowOf).sum = _
  unfold plannedGrants
  rw [List.map_append, List.map_append, List.sum_append, List.sum_append, windows_layDiscovery, windows_layRanging,
    windows_forUnits h.forUnits]
  rfl

/-- A unit has one of the grants of a plan when a pass or a poll gave it one. -/
theorem PlanServed.granted_iff (h : PlanServed carried s x shares polls) :
    (∃ g ∈ plannedGrants carried s, ForUnit g ∧ g.unit = u.val)
      ↔ (u ∈ ringUnits .active s ∧ (x.early u = true ∨ 1 ≤ x.pe u)) ∨ (u ∈ ringUnits .lost s ∧ x.polled u = true) := by
  rw [← h.served.polled]
  have hunits : (∃ g ∈ plannedGrants carried s, ForUnit g ∧ g.unit = u.val) ↔ u.val ∈ (plannedUnits carried s).2.map (·.unit) := by
    rw [List.mem_map]
    exact exists_congr fun g => by rw [← and_assoc, h.mem_plannedGrants]
  rw [hunits, h.mem_units]
  constructor
  · rintro ⟨v, hv, hgiven⟩
    obtain rfl : u = v := Fin.ext hv
    exact hgiven
  · exact fun hgiven => ⟨u, rfl, hgiven⟩

theorem PlanServed.record_of_act (h : PlanServed carried s x shares polls) (hu : u ∈ ringUnits .active s) :
    getU u (planRound n carried s) = grantRecordTo (fullShare (fun u => readyRecord (getU u s)) x u) (readyRecord (getU u s)) := by
  have hno : u ∉ polls := fun hp => by
    have hlost := mem_ringUnits.mp ((h.served.polled u).mp hp).1
    exact absurd ((mem_ringUnits.mp hu).1.symm.trans hlost.1) (by decide)
  rw [getU_planRound, h.records]
  simp only [if_pos hu, if_neg hno]

theorem PlanServed.record_of_poll (h : PlanServed carried s x shares polls) (hu : u ∈ polls) :
    getU u (planRound n carried s) = { readyRecord (getU u s) with poll := 64 } := by
  have hno : u ∉ ringUnits .active s := fun ha => by
    have hlost := mem_ringUnits.mp ((h.served.polled u).mp hu).1
    exact absurd ((mem_ringUnits.mp ha).1.symm.trans hlost.1) (by decide)
  rw [getU_planRound, h.records]
  simp only [if_neg hno, if_pos hu]

theorem PlanServed.record_of_none (h : PlanServed carried s x shares polls)
    (hno : ¬((u ∈ ringUnits .active s ∧ (x.early u = true ∨ 1 ≤ x.pe u)) ∨ u ∈ polls)) :
    getU u (planRound n carried s) = readyRecord (getU u s) := by
  obtain ⟨hact, hpoll⟩ := not_or.mp hno
  rw [getU_planRound, h.records]
  simp only [if_neg hpoll]
  split
  next hu =>
    refine if_neg fun hg => hact ⟨hu, ?_⟩
    have hgranted : (x.early u || decide (1 ≤ x.pe u)) = true := hg
    simpa using hgranted
  next => rfl

/-- The grant that a pass gave is charged to the record (R74, R77, R79, R87). -/
theorem PlanServed.charged_of_act (h : PlanServed carried s x shares polls) (hu : u ∈ ringUnits .active s)
    (hgiven : x.early u = true ∨ 1 ≤ x.pe u) :
    (getU u (planRound n carried s)).credit + 256 * x.pc u = (readyRecord (getU u s)).credit
      ∧ (getU u (planRound n carried s)).outstanding = min 65535 ((readyRecord (getU u s)).outstanding + x.pc u + x.pe u)
      ∧ (getU u (planRound n carried s)).poll = 8 := by
  have hgranted : (fullShare (fun u => readyRecord (getU u s)) x u).granted = true := by simpa [fullShare] using hgiven
  have hcredit : 256 * x.pc u ≤ (readyRecord (getU u s)).credit := (h.served.committed.bounds hu).1
  have hrecord : grantRecordTo (fullShare (fun u => readyRecord (getU u s)) x u) (readyRecord (getU u s))
      = { readyRecord (getU u s) with
          credit := (readyRecord (getU u s)).credit - 256 * x.pc u
          outstanding := satAdd 65535 (readyRecord (getU u s)).outstanding (x.pc u + x.pe u), poll := 8 } := if_pos hgranted
  rw [h.record_of_act hu, hrecord]
  refine ⟨Nat.sub_add_cancel hcredit, ?_, rfl⟩
  rw [Nat.add_assoc]
  rfl

end

end

/-- Settles O7: the passes by their shares, and the records by what each share and each poll writes. -/
theorem planChargesItsGrants : Obligations.PlanChargesItsGrants := by
  unfold Obligations.PlanChargesItsGrants
  intro n carried s hserving
  obtain ⟨x, shares, polls, h⟩ := plan_served hserving carried
  refine ⟨planOf n carried s, x, latestPlan_planRound, ?_, ?_, ?_, fun u => ⟨fun g hg hkind hunit => ?_, ?_, fun hno => ?_⟩⟩
  · rw [h.windows]
    exact h.served.committed
  · rw [h.windows]
    exact h.served.excess
  · rw [h.windows]
    exact h.served.lostPolls
  · rcases h.of_mem (h.mem_plannedGrants.mp ⟨hg, hkind⟩) with ⟨v, hv, hgiven, k, rfl⟩ | ⟨v, hv, k, rfl⟩
    · obtain rfl : v = u := Fin.ext hunit
      have hstate : (readyRecord (getU v s)).state ≠ .lost := fun hl => absurd ((mem_ringUnits.mp hv).1.symm.trans hl) (by decide)
      obtain ⟨hcredit, hout, hpoll⟩ := h.charged_of_act (n := n) hv hgiven
      exact ⟨fun _ => ⟨rfl, rfl⟩, hcredit, hout.trans (if_neg hstate).symm, hpoll.trans (if_neg hstate).symm⟩
    · obtain rfl : v = u := Fin.ext hunit
      have hlost : (getU v s).state = .lost := (mem_ringUnits.mp ((h.served.polled v).mp hv).1).1
      have hstate : (readyRecord (getU v s)).state = .lost := hlost
      rw [h.record_of_poll hv]
      refine ⟨fun ha => ?_, rfl, (if_pos hstate).symm, (if_pos hstate).symm⟩
      exact absurd ((mem_ringUnits.mp ha).1.symm.trans hlost) (by decide)
  · exact h.granted_iff
  · have hnone : ¬((u ∈ ringUnits .active s ∧ (x.early u = true ∨ 1 ≤ x.pe u)) ∨ u ∈ polls) := by
      rw [h.served.polled, ← h.granted_iff]
      rintro ⟨g, hg, hkind, hunit⟩
      exact hno g hg hkind hunit
    rw [h.record_of_none hnone]
    exact ⟨rfl, rfl, rfl⟩

end Sys2Proof.Machine

/-!
PROOFS. What had come due before a round-marker event leaves the premises units, the round number and the count of plans since the
last discovery window as they are.
-/
namespace Sys2Proof.Machine

-- One proof after another, as in the tests: side by side, the proofs of one text hold more stacks than the check's memory has room for.
set_option Elab.async false

/-- The premises units, the number of the next round and the count of plans since the last discovery window stand as they did. -/
structure KeepsRound (s t : State) : Prop where
  pus       : t.pus = s.pus := by rfl
  nextRound : t.tli.nextRound = s.tli.nextRound := by rfl
  since     : t.ec.sinceDiscovery = s.ec.sinceDiscovery := by rfl

section
variable {s t v : State} {u : UnitNo}

theorem KeepsRound.refl (s : State) : KeepsRound s s := {}

theorem KeepsRound.trans (h : KeepsRound s t) (k : KeepsRound t v) : KeepsRound s v :=
  ⟨k.pus.trans h.pus, k.nextRound.trans h.nextRound, k.since.trans h.since⟩

theorem OnlySearch.keepsRound (h : OnlySearch s t) : KeepsRound s t := ⟨h.pus, by rw [h.tli], by rw [h.ec]⟩

theorem OnlyReports.keepsRound (h : OnlyReports s t) : KeepsRound s t := h.search.keepsRound

/-- A run of steps each of which leaves the round. -/
theorem foldl_keepsRound {α : Type} {f : State → α → State} (hf : ∀ t a, KeepsRound t (f t a)) (l : List α) (s : State) :
    KeepsRound s (l.foldl f s) := by
  induction l generalizing s with
  | nil => exact .refl s
  | cons a l ih => exact (hf s a).trans (ih (f s a))

/-! ### The orders of the EC, the UT and the LM -/

theorem offerOrder_keepsRound (p : Producer) (o : PuOrder) (s : State) : KeepsRound s (offerOrder p o s) := by
  unfold offerOrder
  split <;> exact {}

theorem offerAssign_keepsRound (u : UnitNo) (s : State) : KeepsRound s (offerAssign u s) := by
  unfold offerAssign
  split
  · split
    · exact (offerOrder_keepsRound _ _ s).trans {}
    · exact {}
  · exact .refl s

theorem offerDrop_keepsRound (p : Producer) (u : UnitNo) (s : State) : KeepsRound s (offerDrop p u s) := by
  unfold offerDrop
  split
  · exact (offerOrder_keepsRound _ _ s).trans {}
  · exact {}

theorem offerBarSerial_keepsRound (x : Serial) (s : State) : KeepsRound s (offerBarSerial x s) := by
  unfold offerBarSerial
  split
  · exact offerOrder_keepsRound _ _ s
  · exact {}

theorem queueClaiming_keepsRound (u : UnitNo) (s : State) : KeepsRound s (queueClaiming u s) := by
  unfold queueClaiming
  split
  · exact .refl s
  · exact KeepsRound.trans {} (offerNotice_reports _ _).keepsRound

theorem queueHeld_keepsRound (u : UnitNo) (s : State) : KeepsRound s (queueHeld u s) :=
  KeepsRound.trans (t := { s with ut := (queueHeld u s).ut }) {} (queueHeld_reports u s).keepsRound

/-! ### The isolation machine -/

theorem offerStep_keepsRound (k : StepKind) (s : State) : KeepsRound s (offerStep k s) := by
  have htaken : ∀ w : State, KeepsRound w (stepTaken k w) := fun w => by
    rw [stepTaken_frame]
    exact {}
  unfold offerStep
  simp only
  split
  · exact {}
  split
  · exact (enqueueAll_search _ s).keepsRound.trans ((htaken _).trans {})
  · exact {}

theorem clearHush_keepsRound (c : ClearSet) (s : State) : KeepsRound s (clearHush c s) := by
  cases c with
  | nothing => exact .refl s
  | all => exact {}
  | units l => exact foldl_keepsRound (fun t u => {}) l s

theorem hushDueStep_keepsRound (s : State) : KeepsRound s (hushDueStep s) := by
  unfold hushDueStep
  split
  · exact KeepsRound.trans (t := modIso (fun m => { m with clearings := [] }) s) {}
      (foldl_keepsRound (fun _ _ => clearHush_keepsRound _ _) _ _)
  · exact .refl s

theorem stepReofferStep_keepsRound (s : State) : KeepsRound s (stepReofferStep s) := by
  unfold stepReofferStep
  split
  · split
    · exact offerStep_keepsRound _ s
    · exact (offerClosings_search _ s).keepsRound
  · exact .refl s

theorem holdoffStep_keepsRound (s : State) : KeepsRound s (holdoffStep s) := by
  unfold holdoffStep
  split
  · simp only
    split
    · exact KeepsRound.trans (modIso_search _ s).keepsRound (addClosings_search _ _).keepsRound
    · split <;> exact {}
  · exact .refl s

/-! ### The countdowns of a record -/

theorem closeBilling_keepsRound (u : UnitNo) (s : State) : KeepsRound s (closeBilling u s) := by
  have hmod : ∀ f, KeepsRound s (modA u f s) := fun f => {}
  unfold closeBilling
  split
  · exact (hmod _).trans (pace_reports _).keepsRound
  · split
    · exact hmod _
    · exact ((hmod _).trans (saturation_reports _ _ _ _).keepsRound).trans (pace_reports _).keepsRound

theorem retire_keepsRound (u : UnitNo) (s : State) : KeepsRound s (retire u s) := by
  rw [retire_eq]
  exact KeepsRound.trans (t := leftTree u s) {} ((isoRemove_search u _).keepsRound.trans (closeBilling_keepsRound u _))

theorem settleStep_keepsRound (u : UnitNo) (s : State) : KeepsRound s (settleStep u s) := by
  unfold settleStep
  split
  · exact KeepsRound.trans {} (offerAssign_keepsRound u _)
  · exact .refl s

theorem lostHoldStep_keepsRound (u : UnitNo) (s : State) : KeepsRound s (lostHoldStep u s) := by
  unfold lostHoldStep
  split
  · exact (occur_reports _ _ s).keepsRound.trans (retire_keepsRound u _)
  · exact .refl s

theorem refreshStep_keepsRound (u : UnitNo) (s : State) : KeepsRound s (refreshStep u s) := by
  unfold refreshStep
  split
  · exact (queueHeld_keepsRound u s).trans {}
  · exact .refl s

theorem assignStep_keepsRound (u : UnitNo) (s : State) : KeepsRound s (assignStep u s) := by
  unfold assignStep
  split
  · exact offerAssign_keepsRound u s
  · exact .refl s

theorem dropUnitStep_keepsRound (u : UnitNo) (s : State) : KeepsRound s (dropUnitStep u s) := by
  unfold dropUnitStep
  split
  · exact offerDrop_keepsRound _ u s
  · exact .refl s

theorem flushUnit_keepsRound (u : UnitNo) (s : State) : KeepsRound s (flushUnit u s) :=
  (settleStep_keepsRound u s).trans ((lostHoldStep_keepsRound u _).trans ((refreshStep_keepsRound u _).trans
    ((assignStep_keepsRound u _).trans (dropUnitStep_keepsRound u _))))

/-! ### The lists and the reports -/

theorem claimReofferStep_keepsRound (x : Serial) (s : State) : KeepsRound s (claimReofferStep x s) := by
  unfold claimReofferStep
  split
  · exact .refl s
  · simp only
    split
    · split
      · exact KeepsRound.trans {} (queueClaiming_keepsRound _ _)
      · exact {}
    · split
      · exact {}
      · exact KeepsRound.trans {} (queueReleased_reports _ _ _ _).keepsRound
    · exact {}

theorem barReofferStep_keepsRound (x : Serial) (s : State) : KeepsRound s (barReofferStep x s) := by
  unfold barReofferStep
  split
  · exact .refl s
  · simp only
    split
    · exact KeepsRound.trans {} (offerNotice_reports _ _).keepsRound
    · exact {}

theorem barSerialStep_keepsRound (x : Serial) (s : State) : KeepsRound s (barSerialStep x s) := by
  unfold barSerialStep
  split
  · exact .refl s
  · exact KeepsRound.trans {} (offerBarSerial_keepsRound x _)

theorem flushLists_keepsRound (s : State) : KeepsRound s (flushLists s) :=
  (foldl_keepsRound (fun t e => {}) _ s).trans ((foldl_keepsRound (fun t e => {}) _ _).trans
    ((foldl_keepsRound (fun _ _ => claimReofferStep_keepsRound _ _) _ _).trans
      ((foldl_keepsRound (fun _ _ => barReofferStep_keepsRound _ _) _ _).trans
        (foldl_keepsRound (fun _ _ => barSerialStep_keepsRound _ _) _ _))))

theorem intervalStep_keepsRound (s : State) : KeepsRound s (intervalStep s) := by
  unfold intervalStep
  split
  · exact KeepsRound.trans {} (offerNotice_reports _ _).keepsRound
  · exact .refl s

theorem restartEndStep_keepsRound (s : State) : KeepsRound s (restartEndStep s) := by
  unfold restartEndStep
  split <;> exact {}

theorem presenceReofferStep_keepsRound (s : State) : KeepsRound s (presenceReofferStep s) := by
  unfold presenceReofferStep
  split
  · simp only
    split
    · exact KeepsRound.trans {} (offerNotice_reports _ _).keepsRound
    · exact {}
  · exact .refl s

theorem alarmReofferStep_keepsRound (k : AlarmKind) (s : State) : KeepsRound s (alarmReofferStep k s) := by
  unfold alarmReofferStep
  split
  · exact (modK_reports k _ s).keepsRound.trans (offerNotice_reports _ _).keepsRound
  · exact .refl s

theorem pacingStep_keepsRound (s : State) : KeepsRound s (pacingStep s) := by
  unfold pacingStep
  split
  · exact KeepsRound.trans {} (pace_reports _).keepsRound
  · exact .refl s

/-- What had come due leaves the round. -/
theorem flushDue_keepsRound (s : State) : KeepsRound s (flushDue s) := by
  have hsearch := (intervalStep_keepsRound s).trans ((restartEndStep_keepsRound _).trans ((holdoffStep_keepsRound _).trans
    ((hushDueStep_keepsRound _).trans (stepReofferStep_keepsRound _))))
  have hunits := hsearch.trans (foldl_keepsRound (fun t u => flushUnit_keepsRound u t) allUnits _)
  have hlists := hunits.trans ((flushLists_keepsRound _).trans (presenceReofferStep_keepsRound _))
  exact hlists.trans ((foldl_keepsRound (fun t k => alarmReofferStep_keepsRound k t) alarmKinds _).trans (pacingStep_keepsRound _))

theorem tickCounts_keepsRound (s : State) : KeepsRound s (tickCounts s) := {}

theorem ScTicked.keepsRound (h : ScTicked s t) : KeepsRound s t := ⟨h.pus, by rw [h.tli], by rw [h.ec]⟩

/-- The state in which the frame is assembled has the round of the state before the event. -/
theorem countsRun_keepsRound (s : State) : KeepsRound s (countsRun s) := by
  have hflush := flushDue_keepsRound s
  unfold countsRun
  generalize flushDue s = v at hflush ⊢
  exact hflush.trans ((scTick_ticked v).keepsRound.trans (tickCounts_keepsRound _))

end

end Sys2Proof.Machine

/-!
PROOFS. Who a plan grants to (O6).
-/
namespace Sys2Proof.Machine

-- One proof after another, as in the tests: side by side, the proofs of one text hold more stacks than the check's memory has room for.
set_option Elab.async false

/-! ### The queued ASSIGN and EQD orders at the end of the event -/

/-- The queued orders of groups 2 and 3 are the same. -/
def SlowOrdersSame (s t : State) : Prop := ∀ q : QueuedOrder, 2 ≤ orderGroup q.order → (q ∈ t.tli.queue ↔ q ∈ s.tli.queue)

section
variable {s t v p a : State} {u : UnitNo} {n : Nat} {carried : List PuOrder} {missed : List Serial} {f : Frame}

theorem enqueueAll_slowSame {l : List QueuedOrder} (hl : ∀ x ∈ l, orderGroup x.order = 1) (s : State) : SlowOrdersSame s (enqueueAll l s) := by
  intro q hq
  show q ∈ l.foldl (fun r x => enqueue x r) s.tli.queue ↔ q ∈ s.tli.queue
  generalize s.tli.queue = queue
  induction l generalizing queue with
  | nil => exact .rfl
  | cons x l ih =>
    obtain ⟨hx, hrest⟩ := List.forall_mem_cons.mp hl
    have hne : q ≠ x := fun he => by
      rw [he, hx] at hq
      omega
    rw [List.foldl_cons, ih hrest, mem_enqueue]
    exact or_iff_right hne

theorem restepAfter_slowSame (s : State) : SlowOrdersSame s (restepAfter s) := by
  unfold restepAfter
  split
  · generalize hv : modIso (fun m => { m with restep := false }) s = w
    have hqueue : w.tli.queue = s.tli.queue := by
      rw [← hv]
      rfl
    intro q hq
    rw [← hqueue]
    unfold offerStep
    simp only
    split
    · exact .rfl
    split
    · exact enqueueAll_slowSame (markedOffer_urgent (stepOrders_urgent .speak w.lm.iso)) w q hq
    · exact .rfl
  · exact fun _ _ => .rfl

theorem isAssignOrEqd_group {o : PuOrder} (h : (isAssignFor u o || isEqdFor u o) = true) : 2 ≤ orderGroup o := by
  cases o with
  | assign _ _ _ => exact Nat.le_refl 2
  | eqd _ _ => exact Nat.le_refl 2
  | dropUnit _ => exact Nat.le_succ 2
  | _ => simp [isAssignFor, isEqdFor] at h

theorem SlowOrdersSame.noneFor (h : SlowOrdersSame s t) : t.tli.queue.all (fun q => !isAssignFor u q.order && !isEqdFor u q.order)
    = s.tli.queue.all (fun q => !isAssignFor u q.order && !isEqdFor u q.order) := by
  have hnone : ∀ w : State, w.tli.queue.all (fun q => !isAssignFor u q.order && !isEqdFor u q.order) = true
      ↔ ∀ q ∈ w.tli.queue, ¬(isAssignFor u q.order || isEqdFor u q.order) = true := fun w => by
    simp only [List.all_eq_true, ← Bool.not_or, Bool.not_eq_true', Bool.not_eq_true]
  rw [Bool.eq_iff_iff, hnone, hnone]
  exact ⟨fun k q hq hfor => k q ((h q (isAssignOrEqd_group hfor)).mpr hq) hfor, fun k q hq hfor => k q ((h q (isAssignOrEqd_group hfor)).mp hq) hfor⟩

/-! ### What stands at the end of the event, by the state in which the plan was made -/

/-- `t` is the state once the plan made in `s` has gone out. -/
structure PlanGone (carried : List PuOrder) (s t : State) : Prop where
  sc           : t.sc.phase = s.sc.phase ∧ t.sc.settings = s.sc.settings
  search       : t.lm.iso.phase = s.lm.iso.phase
  permits      : t.ec.permits = s.ec.permits
  rangingQueue : t.ec.rangingQueue = s.ec.rangingQueue
  since        : t.ec.sinceDiscovery = countDiscovery (discoveryDue s) s.ec.sinceDiscovery
  marks        : ∀ u, getE u t = if u ∈ rangingPick carried s then { getE u s with attemptPending := true } else getE u s
  records      : ∀ u, getU u t = (plannedUnits carried s).1.get u
  factor       : t.dv.factor = s.dv.factor
  queue        : SlowOrdersSame s t

theorem planRound_gone (n : Nat) (carried : List PuOrder) (s : State) : PlanGone carried s (planRound n carried s) := by
  obtain ⟨units, h, hunits⟩ := planRound_writes n carried s
  rw [h]
  exact ⟨⟨rfl, rfl⟩, rfl, rfl, rfl, rfl, hunits, fun u => rfl, rfl, fun _ _ => .rfl⟩

/-- What the end of the event keeps. -/
structure PlanKept (s t : State) : Prop where
  sc           : t.sc.phase = s.sc.phase ∧ t.sc.settings = s.sc.settings
  search       : t.lm.iso.phase = s.lm.iso.phase
  ec           : t.ec = { s.ec with lostClaims := t.ec.lostClaims }
  ut           : t.ut = s.ut
  factor       : t.dv.factor = s.dv.factor
  queue        : SlowOrdersSame s t

theorem PlanGone.kept (h : PlanGone carried p s) (k : PlanKept s t) : PlanGone carried p t where
  sc := ⟨k.sc.1.trans h.sc.1, k.sc.2.trans h.sc.2⟩
  search := k.search.trans h.search
  permits := by rw [k.ec]; exact h.permits
  rangingQueue := by rw [k.ec]; exact h.rangingQueue
  since := by rw [k.ec]; exact h.since
  marks u := by
    have hsame : getE u t = getE u s := by
      unfold getE
      rw [k.ec]
    rw [hsame]
    exact h.marks u
  records u := (getU_congr k.ut u).trans (h.records u)
  factor := k.factor.trans h.factor
  queue q hq := (k.queue q hq).trans (h.queue q hq)

theorem FrameSent.planKept (h : FrameSent f missed s t) : PlanKept s t :=
  ⟨⟨by rw [h.sc], by rw [h.sc]⟩, by rw [h.lm], h.ec, h.ut, by rw [h.dv], fun _ _ => by rw [h.queue]⟩

theorem restepAfter_planKept (s : State) : PlanKept s (restepAfter s) := by
  have h := restepAfter_search s
  exact ⟨⟨by rw [h.sc], by rw [h.sc]⟩, (restepAfter_phase s).1, h.ec, h.ut, by rw [h.dv], restepAfter_slowSame s⟩

theorem latchTests_planKept (s : State) : PlanKept s (latchTests s) := ⟨⟨rfl, rfl⟩, rfl, rfl, rfl, rfl, fun _ _ => .rfl⟩

theorem assembleFrame_gone (missed : List Serial) (s : State) : PlanGone (frameOrdersOf s) (ordersCarried s) (assembleFrame missed s) :=
  (planRound_gone _ _ _).kept (assembleFrame_sent missed s).planKept

theorem PlanGone.ended (h : PlanGone carried p s) : PlanGone carried p (latchTests (restepAfter s)) :=
  (h.kept (restepAfter_planKept s)).kept (latchTests_planKept _)

theorem event_gone (missed : List Serial) (s : State) :
    PlanGone (frameOrdersOf (countsRun s)) (planningState s) (latchTests (restepAfter (frameGone missed s))) :=
  (assembleFrame_gone missed (countsRun s)).ended

/-! ### The state in which the plan is made -/

theorem ordersCarried_lawful (h : Lawful v s) : Lawful v (ordersCarried s) := lowerHolds_lawful (carryOrders_lawful (purgeOrders_lawful h))

theorem planningState_laws (hr : RangingLaw s) (hc : ClosingLaw s) : RangingLaw (planningState s) := by
  have hflush : Lawful s (flushDue s) := flushDue_lawful (.refl s)
  unfold planningState countsRun
  generalize flushDue s = w at hflush ⊢
  exact ((ordersCarried_lawful (tickCounts_lawful (scTick_lawful hflush))).pair hr hc).1

theorem attemptPending_ordersCarried : (getE u (ordersCarried s)).attemptPending = (getE u s).attemptPending := by
  have hpurge : getE u (purgeOrders s) = getE u s := by
    have hec : (purgeOrders s).ec = s.ec := by rw [purgeOrders_frame]
    unfold getE
    rw [hec]
  have hcarry : (getE u (carryOrders s.tli.nextRound (purgeOrders s))).attemptPending = (getE u (purgeOrders s)).attemptPending := by
    rw [getE_carryOrders]
    split <;> rfl
  rw [ordersCarried, getE_lowerHolds, hcarry, hpurge]

theorem attemptPending_tickCounts : (getE u (tickCounts s)).attemptPending = (getE u s).attemptPending := by
  have htick : getE u (tickCounts s) = { getE u s with assignWait := (getE u s).assignWait.tick } := vmap_get _ _ _
  rw [htick]

theorem ScTicked.getE (h : ScTicked s t) : getE u t = Machine.getE u s := by
  unfold Machine.getE
  rw [h.ec]

theorem attemptPending_planningState : (getE u (planningState s)).attemptPending = (getE u (flushDue s)).attemptPending := by
  unfold planningState countsRun
  rw [attemptPending_ordersCarried, attemptPending_tickCounts, (scTick_ticked _).getE]

theorem since_ordersCarried : (ordersCarried s).ec.sinceDiscovery = s.ec.sinceDiscovery := by
  obtain ⟨ut, units, iso, queue, hcarried⟩ := ordersCarried_frame s
  rw [hcarried]

theorem since_planningState : (planningState s).ec.sinceDiscovery = s.ec.sinceDiscovery := by
  rw [planningState, since_ordersCarried]
  exact (countsRun_keepsRound s).since

/-! ### The grants of a plan, one by one -/

theorem mem_plannedGrants {g : GrantRecord} (hg : g ∈ plannedGrants carried s) :
    (discoveryDue s = true ∧ g = newGrant 64 .discovery (span s.sc.reach) (span s.sc.reach + 76) 0 0 false)
      ∨ (∃ u ∈ rangingPick carried s, ∃ k, g = newGrant u.val .ranging k 12 0 0 false) ∨ g ∈ (plannedUnits carried s).2 := by
  rcases List.mem_append.mp hg with hg | hg
  · rcases List.mem_append.mp hg with hg | hg
    · exact .inl (layDiscovery_kind hg)
    · exact .inr (.inl (mem_layRanging hg))
  · exact .inr (.inr hg)

theorem plannedUnits_outside (h : s.sc.phase ≠ .serving) : (plannedUnits carried s).2 = [] := by
  unfold plannedUnits
  rw [if_neg h]

theorem serving_of_unitGrant {k : Nat} (hk : k ∈ (plannedUnits carried s).2.map (·.unit)) :
    s.sc.phase = .serving := by
  by_contra hno
  rw [plannedUnits_outside hno] at hk
  cases hk

theorem discoveryDue_iff : discoveryDue s = true ↔ s.sc.phase = .serving ∧ s.lm.iso.phase = .watch
    ∧ (s.ec.permits ≠ [] ∨ ∃ u, (getU u s).state = .lost) ∧ (inForce s).interval ≤ s.ec.sinceDiscovery := by
  unfold discoveryDue
  simp [mem_allUnits, and_assoc]

theorem mem_rangingPick (h : u ∈ rangingPick carried s) : s.sc.phase = .serving ∧ s.lm.iso.phase = .watch ∧ u ∈ s.ec.rangingQueue
    ∧ rangingEligible carried s u = true := by
  unfold rangingPick at h
  split at h
  next hp =>
    obtain ⟨hu, helig⟩ := List.mem_filter.mp (List.mem_of_mem_take h)
    exact ⟨hp.1, hp.2, hu, helig⟩
  next => cases h

theorem rangingEligible_hush (h : rangingEligible carried s u = true) : (getU u s).hush = false := by
  simp only [rangingEligible, Bool.and_eq_true, Bool.not_eq_true'] at h
  exact h.1.1.1.1.2

/-- A plan made outside SERVING holds no grant (R68). -/
theorem plannedGrants_outside (h : s.sc.phase ≠ .serving) : plannedGrants carried s = [] := by
  refine List.eq_nil_iff_forall_not_mem.mpr fun g hg => ?_
  rcases mem_plannedGrants hg with ⟨hdue, -⟩ | ⟨u, hu, -⟩ | hg
  · exact h (discoveryDue_iff.mp hdue).1
  · exact h (mem_rangingPick hu).1
  · rw [plannedUnits_outside h] at hg
    cases hg

/-- The records keep state and hush flag at the plan. -/
theorem plannedUnits_record (carried : List PuOrder) (s : State) (u : UnitNo) :
    ((plannedUnits carried s).1.get u).state = (getU u s).state ∧ ((plannedUnits carried s).1.get u).hush = (getU u s).hush := by
  have h := planRound_planRecord u 0 carried s
  rw [getU_planRound] at h
  obtain ⟨p, st, c, o, q, heq⟩ := h
  rw [heq]
  exact ⟨rfl, rfl⟩

theorem PlanGone.state (h : PlanGone carried p t) (u : UnitNo) : (getU u t).state = (getU u p).state ∧ (getU u t).hush = (getU u p).hush := by
  rw [h.records]
  exact plannedUnits_record carried p u

/-! ### Grants by record state (R71, R83, R87) -/

/-- What R87 says of one grant. -/
def GrantByState (g : GrantRecord) (t : State) : Prop :=
  (g.kind = .data → ∃ u : UnitNo, g.unit = u.val ∧ (getU u t).state = .active ∧ (getU u t).hush = false
      ∧ 1 ≤ g.pc + g.pe ∧ g.pc + g.pe ≤ 8 * (getU u t).profile.pk ∧ g.length = 10 + g.pc + g.pe)
    ∧ (g.kind = .reportOnly → ∃ u : UnitNo, g.unit = u.val
      ∧ ((getU u t).state = .active ∨ (getU u t).state = .lost) ∧ (getU u t).hush = false
      ∧ g.pc = 0 ∧ g.pe = 0 ∧ g.length = 10)
    ∧ (g.kind = .ranging → t.lm.iso.phase = .watch ∧ ∃ u : UnitNo, g.unit = u.val ∧ (getU u t).state = .ranging
      ∧ (getU u t).hush = false ∧ (getE u t).attemptPending = true)
    ∧ (g.kind = .discovery → t.lm.iso.phase = .watch ∧ g.unit = 64)
    ∧ (g.busy = true → 1 ≤ g.pe ∧ t.dv.factor < 256)

section
variable {x : Gifts} {shares : List Share} {polls : List UnitNo} {g : GrantRecord}

theorem grantByState_discovery (h : PlanGone carried p t) (hdue : discoveryDue p = true) (n m : Nat) :
    GrantByState (newGrant 64 .discovery n m 0 0 false) t := by
  have hwatch : t.lm.iso.phase = .watch := h.search.trans (discoveryDue_iff.mp hdue).2.1
  exact ⟨fun hk => (nomatch hk), fun hk => (nomatch hk), fun hk => (nomatch hk), fun _ => ⟨hwatch, rfl⟩, fun hk => (nomatch hk)⟩

theorem grantByState_ranging (h : PlanGone carried p t) (hlaw : RangingLaw p) (hu : u ∈ rangingPick carried p) (k m : Nat) :
    GrantByState (newGrant u.val .ranging k m 0 0 false) t := by
  obtain ⟨-, hwatch, hqueue, helig⟩ := mem_rangingPick hu
  obtain ⟨-, hranging, -, -⟩ := hlaw
  have hmark : (getE u t).attemptPending = true := by rw [h.marks, if_pos hu]
  exact ⟨fun hk => (nomatch hk), fun hk => (nomatch hk), fun _ => ⟨h.search.trans hwatch, u, rfl, (h.state u).1.trans ((hranging u).mp hqueue),
    (h.state u).2.trans (rangingEligible_hush helig), hmark⟩, fun hk => (nomatch hk), fun hk => (nomatch hk)⟩

theorem grantByState_poll (h : PlanGone carried p t) (hu : u ∈ ringUnits .lost p) (k : Nat) :
    GrantByState (newGrant u.val .reportOnly k 10 0 0 false) t := by
  obtain ⟨hstate, hhush⟩ := mem_ringUnits.mp hu
  exact ⟨fun hk => (nomatch hk), fun _ => ⟨u, rfl, .inr ((h.state u).1.trans hstate), (h.state u).2.trans hhush, rfl, rfl, rfl⟩,
    fun hk => (nomatch hk), fun hk => (nomatch hk), fun hk => (nomatch hk)⟩

/-- A share gives its unit no more than its peak (R79, R83). -/
theorem PlanServed.payload_le (h : PlanServed carried p x shares polls) (hu : u ∈ ringUnits .active p) :
    x.pc u + x.pe u ≤ 8 * (getU u (planRound n carried p)).profile.pk := by
  have hpc : x.pc u ≤ 8 * (readyRecord (getU u p)).profile.pk := (h.served.committed.bounds hu).2
  have hpe : x.pe u ≤ 8 * (readyRecord (getU u p)).profile.pk - x.pc u := h.served.excess.bound hu
  have hprofile : (getU u (planRound n carried p)).profile = (readyRecord (getU u p)).profile := by
    rw [h.record_of_act hu]
    unfold grantRecordTo
    split <;> rfl
  rw [hprofile]
  omega

theorem grantByState_share (h : PlanGone carried p t) (hx : PlanServed carried p x shares polls) (hu : u ∈ ringUnits .active p) (k : Nat) :
    GrantByState (shareGrant p.dv.factor (fullShare (fun u => readyRecord (getU u p)) x u) k) t := by
  obtain ⟨hstate, hhush⟩ := mem_ringUnits.mp hu
  have hactive : (getU u t).state = .active := (h.state u).1.trans hstate
  have hloud : (getU u t).hush = false := (h.state u).2.trans hhush
  have hpeak : x.pc u + x.pe u ≤ 8 * (getU u t).profile.pk := by
    have hle := hx.payload_le (n := 0) hu
    rw [getU_planRound] at hle
    rw [h.records]
    exact hle
  have hkind : (shareGrant p.dv.factor (fullShare (fun u => readyRecord (getU u p)) x u) k).kind
      = if 1 ≤ x.pc u + x.pe u then .data else .reportOnly := rfl
  refine ⟨fun hk => ⟨u, rfl, hactive, hloud, ?_, hpeak, rfl⟩, fun hk => ?_, fun hk => ?_, fun hk => ?_, fun hbusy => ?_⟩
  · rw [hkind] at hk
    show 1 ≤ x.pc u + x.pe u
    by_contra hno
    rw [if_neg hno] at hk
    cases hk
  · rw [hkind] at hk
    have hnone : ¬1 ≤ x.pc u + x.pe u := fun hyes => by
      rw [if_pos hyes] at hk
      cases hk
    have hpc : x.pc u = 0 := by omega
    have hpe : x.pe u = 0 := by omega
    refine ⟨u, rfl, .inl hactive, hloud, hpc, hpe, ?_⟩
    show 10 + x.pc u + x.pe u = 10
    omega
  · rw [hkind] at hk
    split at hk <;> cases hk
  · rw [hkind] at hk
    split at hk <;> cases hk
  · have hboth : (decide (1 ≤ x.pe u) && decide (p.dv.factor < 256)) = true := hbusy
    rw [h.factor]
    exact ⟨of_decide_eq_true (Bool.and_eq_true_iff.mp hboth).1, of_decide_eq_true (Bool.and_eq_true_iff.mp hboth).2⟩

theorem planned_byState (h : PlanGone carried p t) (hlaw : RangingLaw p) (hg : g ∈ plannedGrants carried p) : GrantByState g t := by
  rcases mem_plannedGrants hg with ⟨hdue, rfl⟩ | ⟨u, hu, k, rfl⟩ | hunit
  · exact grantByState_discovery h hdue _ _
  · exact grantByState_ranging h hlaw hu _ _
  · have hserving : p.sc.phase = .serving := serving_of_unitGrant (List.mem_map_of_mem hunit)
    obtain ⟨x, shares, polls, hx⟩ := plan_served hserving carried
    rcases hx.of_mem hunit with ⟨u, hu, -, k, rfl⟩ | ⟨u, hu, k, rfl⟩
    · exact grantByState_share h hx hu k
    · exact grantByState_poll h ((hx.served.polled u).mp hu).1 k

end

/-! ### No unit twice (R86) -/

/-- The units that a plan grants to, once each. -/
theorem unitGrants_nodup (carried : List PuOrder) (s : State) : ((plannedUnits carried s).2.map (·.unit)).Nodup := by
  by_cases hserving : s.sc.phase = .serving
  · obtain ⟨x, shares, polls, hx⟩ := plan_served hserving carried
    obtain ⟨k, hk⟩ := hx.grants
    have hact : (shares.map (fun h => h.unit.val)).Nodup := by
      rw [hx.served.shares, List.map_map]
      exact (ringUnits_nodup .active s).map Fin.val_injective
    have hpolls : (polls.map (fun u => u.val)).Nodup :=
      (hx.served.sublist.nodup (ringUnits_nodup .lost s)).map Fin.val_injective
    rw [hk, List.map_append, layShares_units, layPolls_units]
    refine (hact.sublist (List.filter_sublist.map _)).append hpolls fun j hshare hpoll => ?_
    obtain ⟨h, hh, rfl⟩ := List.mem_map.mp hshare
    obtain ⟨v, hv, hvj⟩ := List.mem_map.mp hpoll
    have hmem := (List.mem_filter.mp hh).1
    rw [hx.served.shares] at hmem
    obtain ⟨u, hu, rfl⟩ := List.mem_map.mp hmem
    obtain rfl : v = u := Fin.ext hvj
    have hlost := mem_ringUnits.mp ((hx.served.polled v).mp hv).1
    exact absurd ((mem_ringUnits.mp hu).1.symm.trans hlost.1) (by decide)
  · rw [plannedUnits_outside hserving]
    exact .nil

/-- A unit grant goes to an ACTIVE or a LOST record. -/
theorem unitGrants_state {k : Nat} (hk : k ∈ (plannedUnits carried s).2.map (·.unit)) :
    ∃ u : UnitNo, k = u.val ∧ ((getU u s).state = .active ∨ (getU u s).state = .lost) := by
  have hserving : s.sc.phase = .serving := serving_of_unitGrant hk
  obtain ⟨x, shares, polls, hx⟩ := plan_served hserving carried
  obtain ⟨u, rfl, hu | hu⟩ := hx.mem_units.mp hk
  · exact ⟨u, rfl, .inl (mem_ringUnits.mp hu.1).1⟩
  · exact ⟨u, rfl, .inr (mem_ringUnits.mp ((hx.served.polled u).mp hu).1).1⟩

theorem rangingPick_nodup (hlaw : RangingLaw s) : (rangingPick carried s).Nodup := by
  obtain ⟨hnodup, -⟩ := hlaw
  unfold rangingPick
  split
  · exact ((hnodup.filter _).sublist (List.take_sublist 2 _))
  · exact .nil

theorem layDiscovery_units (c : ReachClass) (due : Bool) : (layDiscovery c due).map (·.unit) = if due then [64] else [] := by
  cases due <;> rfl

theorem plannedGrants_nodup (hlaw : RangingLaw s) : ((plannedGrants carried s).map (·.unit)).Nodup := by
  have hwindows : ((layDiscovery s.sc.reach (discoveryDue s)
      ++ layRanging (rangingPick carried s) (if discoveryDue s then span s.sc.reach + 76 else 0)).map (·.unit)).Nodup := by
    rw [List.map_append, layDiscovery_units, layRanging_units]
    refine List.Nodup.append ?_ ((rangingPick_nodup hlaw).map Fin.val_injective) fun k hk hr => ?_
    · split
      · exact List.nodup_singleton 64
      · exact .nil
    · obtain ⟨u, -, rfl⟩ := List.mem_map.mp hr
      split at hk
      · exact absurd (List.mem_singleton.mp hk) (Nat.ne_of_lt u.isLt)
      · cases hk
  unfold plannedGrants
  rw [List.map_append]
  refine hwindows.append (unitGrants_nodup carried s) fun k hk hunit => ?_
  obtain ⟨u, rfl, hstate⟩ := unitGrants_state hunit
  rw [List.map_append, layDiscovery_units, layRanging_units] at hk
  rcases List.mem_append.mp hk with hk | hk
  · split at hk
    · exact absurd (List.mem_singleton.mp hk) (Nat.ne_of_lt u.isLt)
    · cases hk
  · obtain ⟨v, hv, hvu⟩ := List.mem_map.mp hk
    obtain rfl : v = u := Fin.ext hvu
    have hranging := (hlaw.2.1 v).mp (mem_rangingPick hv).2.2.1
    rw [hranging] at hstate
    exact absurd hstate (by decide)

end

end Sys2Proof.Machine

/-!
PROOFS. Whom the plan of a round-marker event grants to (O6), and the frame that goes out (O4).
-/
namespace Sys2Proof.Machine

-- One proof after another, as in the tests: side by side, the proofs of one text hold more stacks than the check's memory has room for.
set_option Elab.async false

section
variable {s t p : State} {u : UnitNo} {carried : List PuOrder} {missed : List Serial}

/-! ### The windows that are due (R44, R60) -/

theorem discovery_planned_iff : (∃ g ∈ plannedGrants carried s, g.kind = .discovery) ↔ discoveryDue s = true := by
  constructor
  · rintro ⟨g, hg, hk⟩
    rcases mem_plannedGrants hg with ⟨hdue, -⟩ | ⟨u, hu, k, rfl⟩ | hunit
    · exact hdue
    · cases hk
    · have hserving : s.sc.phase = .serving := serving_of_unitGrant (List.mem_map_of_mem hunit)
      obtain ⟨x, shares, polls, hx⟩ := plan_served hserving carried
      have hfor := hx.forUnits g hunit
      unfold ForUnit at hfor
      rw [hk] at hfor
      exact absurd hfor (by decide)
  · intro hdue
    refine ⟨newGrant 64 .discovery (span s.sc.reach) (span s.sc.reach + 76) 0 0 false, ?_, rfl⟩
    refine List.mem_append_left _ (List.mem_append_left _ ?_)
    unfold layDiscovery
    rw [if_pos hdue]
    exact List.mem_singleton.mpr rfl

theorem PlanGone.discoveryDue_iff (h : PlanGone carried p t) : discoveryDue p = true ↔ t.sc.phase = .serving ∧ t.lm.iso.phase = .watch
    ∧ (t.ec.permits ≠ [] ∨ ∃ u, (getU u t).state = .lost) ∧ (inForce t).interval ≤ p.ec.sinceDiscovery := by
  have hforce : inForce t = inForce p := by
    unfold inForce
    rw [h.sc.2]
  have hlost : (∃ u, (getU u t).state = .lost) ↔ ∃ u, (getU u p).state = .lost := exists_congr fun u => by rw [(h.state u).1]
  rw [Machine.discoveryDue_iff, h.sc.1, h.search, h.permits, hforce, hlost]

/-- The ranging grants of a plan, in the order of the pick. -/
theorem ranging_planned (carried : List PuOrder) (s : State) :
    ((plannedGrants carried s).filter (fun g => g.kind == .ranging)).map (·.unit) = (rangingPick carried s).map (·.val) := by
  have hdisc : (layDiscovery s.sc.reach (discoveryDue s)).filter (fun g => g.kind == .ranging) = [] :=
    List.filter_eq_nil_iff.mpr fun g hg => by
      obtain ⟨-, rfl⟩ := layDiscovery_kind hg
      exact Bool.false_ne_true
  have hrang : ∀ w, (layRanging (rangingPick carried s) w).filter (fun g => g.kind == .ranging) = layRanging (rangingPick carried s) w :=
    fun w => List.filter_eq_self.mpr fun g hg => by
      obtain ⟨u, -, k, rfl⟩ := mem_layRanging hg
      rfl
  have hunits : (plannedUnits carried s).2.filter (fun g => g.kind == .ranging) = [] := List.filter_eq_nil_iff.mpr fun g hg => by
    by_cases hserving : s.sc.phase = .serving
    · obtain ⟨x, shares, polls, hx⟩ := plan_served hserving carried
      rcases hx.forUnits g hg with hk | hk <;> rw [hk] <;> decide
    · rw [plannedUnits_outside hserving] at hg
      cases hg
  unfold plannedGrants
  rw [List.filter_append, List.filter_append, hdisc, hrang, hunits, List.nil_append, List.append_nil, layRanging_units]

/-- R60's tests, as they can be read off at the end of the event. -/
theorem PlanGone.eligible (h : PlanGone carried p t) {pending : Bool} (hpending : pending = (getE u p).attemptPending) :
    (!pending && !(getU u t).hush && (getE u t).assignWait == .idle
      && t.tli.queue.all (fun q => !isAssignFor u q.order && !isEqdFor u q.order)
      && carried.all (fun o => !isAssignFor u o && !isEqdFor u o)) = rangingEligible carried p u := by
  have hwait : (getE u t).assignWait = (getE u p).assignWait := by
    rw [h.marks]
    split <;> rfl
  have hqueue : p.tli.queue.all (fun q => !isAssignFor u q.order && !isEqdFor u q.order) = (!assignQueued u p && !eqdQueued u p) := by
    unfold assignQueued eqdQueued
    rw [Bool.eq_iff_iff]
    simp only [List.all_eq_true, Bool.and_eq_true, Bool.not_eq_true', List.any_eq_false, Bool.not_eq_true]
    exact forall₂_and
  have hcarried : carried.all (fun o => !isAssignFor u o && !isEqdFor u o) = !carried.any (fun o => isAssignFor u o || isEqdFor u o) := by
    rw [List.not_any_eq_all_not]
    simp only [Bool.not_or]
  rw [hpending, (h.state u).2, hwait, h.queue.noneFor, hqueue, hcarried]
  unfold rangingEligible
  cases (getE u p).attemptPending <;> cases (getU u p).hush <;> cases assignQueued u p <;> cases eqdQueued u p <;> simp

/-- The records ranged are the first two eligible ones (R60). -/
theorem PlanGone.ranged (h : PlanGone carried p t) (hserving : t.sc.phase = .serving) (hwatch : t.lm.iso.phase = .watch)
    {pending : UnitNo → Bool} (hpending : ∀ u, pending u = (getE u p).attemptPending) {orders : List PuOrder} (horders : orders = carried) :
    ((plannedGrants carried p).filter (fun g => g.kind == .ranging)).map (·.unit) = ((t.ec.rangingQueue.filter (fun u =>
      !pending u && !(getU u t).hush && (getE u t).assignWait == .idle
        && t.tli.queue.all (fun q => !isAssignFor u q.order && !isEqdFor u q.order)
        && orders.all (fun o => !isAssignFor u o && !isEqdFor u o))).take 2).map (·.val) := by
  have hpick : rangingPick carried p = (t.ec.rangingQueue.filter (rangingEligible carried p)).take 2 := by
    rw [h.rangingQueue]
    exact if_pos ⟨h.sc.1 ▸ hserving, h.search ▸ hwatch⟩
  rw [ranging_planned, hpick, horders]
  simp only [h.eligible (hpending _)]

/-! ### The frame of the event -/

theorem lastFrame_latchTests (s : State) : (latchTests (restepAfter s)).tli.lastFrame = s.tli.lastFrame := by
  have htli := (restepAfter_search s).tli
  show (restepAfter s).tli.lastFrame = _
  rw [htli]

theorem lastFrame_event (missed : List Serial) (s : State) :
    (latchTests (restepAfter (frameGone missed s))).tli.lastFrame = some (frameMade (countsRun s)) := by
  rw [lastFrame_latchTests, frameGone, (assembleFrame_sent missed (countsRun s)).lastFrame]

theorem frameMade_orders (s : State) : (frameMade s).orders = frameOrdersOf s := rfl

end

/-- Settles O6: who is granted to, read off the members of the layout at the state in which the plan is made. -/
theorem planGrantsByRecordState : Obligations.PlanGrantsByRecordState := by
  unfold Obligations.PlanGrantsByRecordState
  intro missed s hheld hr hc
  have h := event_gone missed s
  have hlaw := planningState_laws hr hc
  have hframe := lastFrame_event missed s
  have horders := frameMade_orders (countsRun s)
  have hplan := latestPlan_event missed s
  have hsince := since_planningState (s := s)
  have hdue := h.discoveryDue_iff
  have hafter := h.since
  rw [hsince] at hdue hafter
  refine ⟨_, _, eventPlan s, exec_roundMarker hheld missed, hframe, hplan, plannedGrants_nodup hlaw, fun hphase => ?_,
    fun g hg => planned_byState h hlaw hg, discovery_planned_iff.trans hdue, fun hdisc => ?_, fun hnone => ?_, fun hserving hwatch => ?_⟩
  · exact plannedGrants_outside (h.sc.1 ▸ hphase)
  · rw [hafter, discovery_planned_iff.mp hdisc]
    rfl
  · have hnot : discoveryDue (planningState s) = false := by
      rw [← Bool.not_eq_true]
      intro hyes
      obtain ⟨g, hg, hk⟩ := discovery_planned_iff.mpr hyes
      exact hnone g hg hk
    rw [hafter, hnot]
    rfl
  · exact h.ranged hserving hwatch (fun u => attemptPending_planningState.symm) horders

end Sys2Proof.Machine

/-!
PROOFS. The frame of a round-marker event (O4).
-/
namespace Sys2Proof.Machine

-- One proof after another, as in the tests: side by side, the proofs of one text hold more stacks than the check's memory has room for.
set_option Elab.async false

/-! ### The size of a frame (R5) -/

section
variable {s a : State} {u : UnitNo} {n : Nat} {mark : Bool} {carried : List PuOrder} {missed : List Serial}

/-- Grants laid in order and apart are no more than the grains they lie in. -/
theorem Laid.length_le {i j : Nat} {l : List GrantRecord} (h : Laid i l j) : l.length + i ≤ j := by
  induction h with
  | nil h => simpa using h
  | cons hfrom hto h ih =>
    rw [List.length_cons]
    omega

theorem orderBytes_length_le (o : PuOrder) : o.bytes.length ≤ 13 := by
  cases o <;> simp [PuOrder.bytes, beBytes_length]

theorem grantBytes_length (e : GrantEntry) : e.bytes.length = 6 := by simp [GrantEntry.bytes, beBytes_length]

theorem packetBytes_length (p : Packet) : p.bytes.length = p.data.length + 3 := by
  simp [Packet.bytes, beBytes_length]
  omega

theorem orders_length_le (l : List PuOrder) : (l.map (fun o => o.bytes.length)).sum ≤ 13 * l.length := by
  have h := List.sum_le_card_nsmul (l.map (fun o => o.bytes.length)) 13 (by
    intro k hk
    obtain ⟨o, -, rfl⟩ := List.mem_map.mp hk
    exact orderBytes_length_le o)
  rw [List.length_map, smul_eq_mul, Nat.mul_comm] at h
  exact h

theorem frameBytes_length (f : Frame) : f.bytes.length
    = 9 + 6 * f.entries.length + (f.orders.map (fun o => o.bytes.length)).sum + (f.packets.map (fun p => p.data.length + 3)).sum := by
  have hentries : (f.entries.flatMap GrantEntry.bytes).length = 6 * f.entries.length := by
    rw [List.length_flatMap, show (fun e : GrantEntry => e.bytes.length) = fun _ => 6 from funext grantBytes_length,
      List.map_const', List.sum_replicate, smul_eq_mul, Nat.mul_comm]
  have hpackets : (f.packets.flatMap Packet.bytes).length = (f.packets.map (fun p => p.data.length + 3)).sum := by
    rw [List.length_flatMap, show (fun p : Packet => p.bytes.length) = fun p => p.data.length + 3 from funext packetBytes_length]
  have horders : (f.orders.flatMap PuOrder.bytes).length = (f.orders.map (fun o => o.bytes.length)).sum := List.length_flatMap
  unfold Frame.bytes Frame.content Frame.header
  simp only [List.length_append, beBytes_length, hentries, hpackets, horders]
  omega

theorem frameOf_length_le (horders : carried.length ≤ 8) (hentries : (planEntries s).length ≤ 12484) :
    (frameOf n mark carried s).bytes.length ≤ 100000 := by
  have hbytes := orders_length_le carried
  have hfits : ((frameOf n mark carried s).packets.map (fun p => p.data.length + 3)).sum ≤ packetArea (planEntries s) carried :=
    (framePackets_framed _ _ _).fits
  have hroom : packetArea (planEntries s) carried
      = 100000 - 5 - 6 * (planEntries s).length - (carried.map (fun o => o.bytes.length)).sum - 4 := rfl
  have hlen := frameBytes_length (frameOf n mark carried s)
  have hown : (frameOf n mark carried s).entries = planEntries s ∧ (frameOf n mark carried s).orders = carried := ⟨rfl, rfl⟩
  rw [hown.1, hown.2] at hlen
  omega

/-! ### The frame of the event -/

/-- The entries of a plan (R5). -/
def entriesOf (p : Plan) : List GrantEntry := p.grants.map (fun g => ⟨g.unit, g.kind, g.start, g.length⟩)

theorem planEntries_of_latest {t : State} {p : Plan} (h : latestPlan t = some p) : planEntries t = entriesOf p := by
  unfold latestPlan at h
  unfold planEntries
  rw [h]
  rfl

theorem planEntries_planRound : planEntries (planRound n carried s) = entriesOf (planOf n carried s) :=
  planEntries_of_latest latestPlan_planRound

theorem frameOf_entries : (frameOf n mark carried s).entries = planEntries s := rfl

theorem frameMade_entries (s : State) : (frameMade s).entries = entriesOf (planOf s.tli.nextRound (frameOrdersOf s) (ordersCarried s)) := by
  rw [frameMade, frameOf_entries, planMade, planEntries_planRound]

theorem frameMade_round (s : State) : (frameMade s).round = s.tli.nextRound := rfl

theorem planOf_round : (planOf n carried s).round = n := rfl

theorem eventPlan_eq (s : State) : eventPlan s = planOf (countsRun s).tli.nextRound (frameOrdersOf (countsRun s)) (ordersCarried (countsRun s)) := by
  unfold eventPlan planningState
  exact Eq.refl (planOf (countsRun s).tli.nextRound (frameOrdersOf (countsRun s)) (ordersCarried (countsRun s)))

theorem eventPlan_round (s : State) : (eventPlan s).round = (countsRun s).tli.nextRound := by rw [eventPlan, planOf_round]

/-- The entries of the frame are those of the plan of the event (R70). -/
theorem event_entries (s : State) : (frameMade (countsRun s)).entries = entriesOf (eventPlan s) :=
  (frameMade_entries (countsRun s)).trans (congrArg entriesOf (eventPlan_eq s).symm)

theorem frameOrdersOf_length (s : State) : (frameOrdersOf s).length ≤ 8 := by
  unfold frameOrdersOf frameOrders
  rw [List.length_map]
  exact List.length_take_le 8 _

theorem frameMade_orders_le (s : State) : (frameMade s).orders.length ≤ 8 := by
  rw [frameMade_orders]
  exact frameOrdersOf_length s

theorem frameMade_length_le (s : State) : (frameMade s).bytes.length ≤ 100000 := by
  refine frameOf_length_le (frameOrdersOf_length s) ?_
  have hlaid := (planOf_laid s.tli.nextRound (frameOrdersOf s) (ordersCarried s)).length_le
  rw [Nat.add_zero] at hlaid
  rw [planMade, planEntries_planRound, entriesOf, List.length_map]
  exact hlaid

theorem frameMade_mark (s : State) : (frameMade s).mark = true ↔ s.sc.phase ≠ .serving := by
  have hmark : (frameMade s).mark = (s.sc.phase != .serving) := rfl
  rw [hmark, bne_iff_ne]

theorem ordersCarried_keeps (s : State) : (ordersCarried s).sc = s.sc ∧ (ordersCarried s).pus = s.pus := by
  obtain ⟨ut, units, iso, queue, hcarried⟩ := ordersCarried_frame s
  rw [hcarried]
  exact ⟨rfl, rfl⟩

/-- A marked frame has no entries (R20, R68). -/
theorem frameMade_marked (h : (frameMade s).mark = true) : (frameMade s).entries = [] := by
  have hnone : (planOf s.tli.nextRound (frameOrdersOf s) (ordersCarried s)).grants = [] :=
    plannedGrants_outside (by rw [(ordersCarried_keeps s).1]; exact (frameMade_mark s).mp h)
  rw [frameMade_entries, entriesOf, hnone]
  rfl

/-- What goes out at the event (R1, R20). -/
theorem assembleFrame_goes (missed : List Serial) (s : State) :
    (assembleFrame missed s).tli.nextRound = wrap16 s.tli.nextRound
      ∧ (assembleFrame missed s).pus = puReceive (frameMade s) missed s.pus ∧ (assembleFrame missed s).sc.phase = s.sc.phase := by
  have h := assembleFrame_sent missed s
  obtain ⟨-, -, hsc, -, hpus⟩ := planMade_frame s
  obtain ⟨csc, cpus⟩ := ordersCarried_keeps s
  refine ⟨h.nextRound, ?_, ?_⟩
  · rw [h.pus, hpus, cpus]
  · rw [h.sc, hsc, csc]

/-! ### The tests at the end of the event (R145, R195) -/

theorem restartTest_iff : (latchTests a).sc.restartEnds = true ↔ (latchTests a).sc.phase = .restarting ∧ ∀ u, (getU u (latchTests a)).state = .free := by
  have hsame : (latchTests a).sc.restartEnds = (a.sc.phase == .restarting && allUnits.all (fun u => (getU u a).state == .free)) := rfl
  have hrecords : ∀ u, getU u (latchTests a) = getU u a := fun _ => rfl
  have hphase : (latchTests a).sc.phase = a.sc.phase := rfl
  rw [hsame, hphase]
  simp [mem_allUnits, hrecords]

theorem paceTest_iff : (latchTests a).ucb.paceDue = true
    ↔ (latchTests a).ucb.out < 4 ∧ ∃ u q, (getA u (latchTests a)).snapshot = some q ∧ q.notice = .unqueued := by
  have hsame : (latchTests a).ucb.paceDue = (decide (a.ucb.out < 4) && allUnits.any (fun u => unqueued (getA u a))) := rfl
  have haccounts : ∀ u, getA u (latchTests a) = getA u a := fun _ => rfl
  have hout : (latchTests a).ucb.out = a.ucb.out := rfl
  rw [hsame, hout]
  simp [mem_allUnits, haccounts, unqueued_iff]

/-- The end of the event leaves the frame that has gone out. -/
theorem latchTests_keeps (s : State) : (latchTests (restepAfter s)).tli.nextRound = s.tli.nextRound
    ∧ (latchTests (restepAfter s)).pus = s.pus ∧ (latchTests (restepAfter s)).sc.phase = s.sc.phase := by
  have h := restepAfter_search s
  exact ⟨by show (restepAfter s).tli.nextRound = _; rw [h.tli], h.pus, by show (restepAfter s).sc.phase = _; rw [h.sc]⟩

theorem event_goes (missed : List Serial) (s : State) :
    (latchTests (restepAfter (frameGone missed s))).tli.nextRound = (s.tli.nextRound + 1) % 65536
      ∧ (latchTests (restepAfter (frameGone missed s))).pus = puReceive (frameMade (countsRun s)) missed s.pus
      ∧ (latchTests (restepAfter (frameGone missed s))).sc.phase = (countsRun s).sc.phase := by
  have hround := countsRun_keepsRound s
  obtain ⟨lround, lpus, lphase⟩ := latchTests_keeps (frameGone missed s)
  obtain ⟨around, apus, aphase⟩ := assembleFrame_goes missed (countsRun s)
  rw [hround.nextRound] at around
  rw [hround.pus] at apus
  exact ⟨lround.trans around, lpus.trans apus, lphase.trans aphase⟩

end

/-- Settles O4: the frame by its parts, the count of its grants by their layout, and the tests at the end as `latchTests` makes them. -/
theorem roundMarkerSendsTheNextFrame : Obligations.RoundMarkerSendsTheNextFrame := by
  unfold Obligations.RoundMarkerSendsTheNextFrame
  intro missed s hheld
  obtain ⟨hround, hpus, hphase⟩ := event_goes missed s
  have hplan := (eventPlan_round s).trans (frameMade_round (countsRun s)).symm
  have hnumber := (frameMade_round (countsRun s)).trans (countsRun_keepsRound s).nextRound
  have hmark := frameMade_mark (countsRun s)
  rw [← hphase] at hmark
  exact ⟨_, frameMade (countsRun s), eventPlan s, exec_roundMarker hheld missed, lastFrame_event missed s, hnumber, hround, hmark,
    frameMade_orders_le _, frameMade_length_le _, latestPlan_event missed s, hplan, event_entries s, frameMade_marked, hpus,
    restartTest_iff, paceTest_iff⟩

end Sys2Proof.Machine
